-- ==== Sys2Proof/Word.lean ====
section
/-!
DEFINITION. The widths of the values the block handles (00_scope.md R8, R9; 10_state.md). An offset into
the buffer, and a count of its bytes, is a `Nat`: its register has `ADDR_W` bits, a parameter, and is
written through `Params.narrow` (Config.lean).
-/
namespace Sys2Proof

/-- One byte of the buffer, or the data byte of CRC_BYTE (00_scope.md R9, `u8`). -/
abbrev Byte := BitVec 8

/-- The 16-bit immediate operand IMM of a command (30_encoding.md R70, R72). -/
abbrev Imm := BitVec 16

/-- An error-information register but ERR_CMD: 16 bits (10_state.md R29). -/
abbrev ErrInfo := BitVec 16

/-- A command word on the command port, or the word a host register read returns
(30_encoding.md R70, 10_state.md R33). -/
abbrev Word := BitVec 32

/-- The image of a returned value in RESULT (00_scope.md R8: the value width is 64 bits). -/
abbrev Value := BitVec 64

/-- The running CRC-16 (00_scope.md R8: the CRC width is 16 bits). -/
abbrev Crc := BitVec 16

end Sys2Proof
end

