-- ==== Sys2Proof/Syntax.lean ====
section
/-!
DEFINITION. The commands of the block: one constructor for each row of spec/opcode_table.json, that is
for each of the 16 assigned opcodes of 30_encoding.md R73.
-/
namespace Sys2Proof

/-- A command. `advance` is the ADV flag of a read (R71: true consumes, false peeks); the other operands
are the 16-bit unsigned immediate IMM (R72). CRC_BYTE carries the whole IMM: its upper byte must be 0,
which `Instr.WellFormed` says and the command itself checks (R74 (d), 42_crc.md R143). -/
inductive Instr where
  /-- READ_U8, opcode 0x01 (40_cursor_reads.md R102). -/
  | readU8 (advance : Bool)
  /-- READ_U16, opcode 0x02 (R103). -/
  | readU16 (advance : Bool)
  /-- READ_U32, opcode 0x03 (R104). -/
  | readU32 (advance : Bool)
  /-- READ_U64, opcode 0x04 (R105). -/
  | readU64 (advance : Bool)
  /-- READ_I16, opcode 0x05 (R106). -/
  | readI16 (advance : Bool)
  /-- READ_I32, opcode 0x06 (R107). -/
  | readI32 (advance : Bool)
  /-- TAKE_SLICE n, opcode 0x08 (41_cursor_control.md R120). -/
  | takeSlice (n : Imm)
  /-- REMAINING, opcode 0x09 (R122). -/
  | remaining
  /-- POSITION, opcode 0x0A (R123). -/
  | position
  /-- SNAPSHOT, opcode 0x0B (R124). -/
  | snapshot
  /-- RESTORE, opcode 0x0C (R125). -/
  | restore
  /-- CRC_INIT, opcode 0x10 (42_crc.md R141). -/
  | crcInit
  /-- CRC_BYTE b, opcode 0x11 (R143): `b` is the low byte of `imm`. -/
  | crcByte (imm : Imm)
  /-- CRC_SPAN A, opcode 0x12 (R142). -/
  | crcSpan (start : Imm)
  /-- CRC_READ, opcode 0x13 (R144). -/
  | crcRead
  /-- CRC_CHECK, opcode 0x14 (R145). -/
  | crcCheck
deriving DecidableEq, Repr

end Sys2Proof
end

