-- ==== Sys2Proof/WellFormed.lean ====
section
/-!
DEFINITION. Which commands are well-formed: the conditions of 30_encoding.md R74 that a term of `Instr`
can still break. R74 (a) to (c), and `IMM = 0` of the opcodes that do not use it, hold of every term,
which has no field to hold anything else; Decode.lean checks them on a word.
-/
namespace Sys2Proof

/-- The operand check of 30_encoding.md R72 and R74 (d): CRC_BYTE needs `IMM[15:8] = 0`. Every `n` of
TAKE_SLICE and every `A` of CRC_SPAN is admitted at decode. -/
def Instr.wellFormed : Instr → Bool
  | .readU8 _ => true
  | .readU16 _ => true
  | .readU32 _ => true
  | .readU64 _ => true
  | .readI16 _ => true
  | .readI32 _ => true
  | .takeSlice _ => true
  | .remaining => true
  | .position => true
  | .snapshot => true
  | .restore => true
  | .crcInit => true
  | .crcByte imm => imm.extractLsb' 8 8 == 0
  | .crcSpan _ => true
  | .crcRead => true
  | .crcCheck => true

/-- A well-formed command (30_encoding.md R74). -/
abbrev Instr.WellFormed (i : Instr) : Prop := i.wellFormed = true

end Sys2Proof
end

