-- ==== Sys2Proof/Decode.lean ====
section
/-!
DEFINITION. The encoding of commands (30_encoding.md): the decoder, total on 32-bit words and rejecting
by name, and after it the encoder, written from the same tables. A command is one whole word (R53, R76):
no byte order applies to it.
-/
namespace Sys2Proof

/-- The 16 assigned opcodes (30_encoding.md R73), by mnemonic. -/
inductive Opcode where
  | readU8 | readU16 | readU32 | readU64 | readI16 | readI32
  | takeSlice | remaining | position | snapshot | restore
  | crcInit | crcByte | crcSpan | crcRead | crcCheck
deriving DecidableEq, Repr

/-- The opcode map of 30_encoding.md R73: OP and the command it stands for. -/
def opcodeMap : List (Byte × Opcode) :=
  [(0x01, .readU8), (0x02, .readU16), (0x03, .readU32), (0x04, .readU64),
   (0x05, .readI16), (0x06, .readI32),
   (0x08, .takeSlice), (0x09, .remaining), (0x0A, .position), (0x0B, .snapshot), (0x0C, .restore),
   (0x10, .crcInit), (0x11, .crcByte), (0x12, .crcSpan), (0x13, .crcRead), (0x14, .crcCheck)]

/-- The opcode numbered `op`; none for the unassigned opcodes of 30_encoding.md R75. -/
def opcodeOf (op : Byte) : Option Opcode := opcodeMap.lookup op

/-- The number of an opcode (30_encoding.md R73). -/
def opcodeNumber : Opcode → Byte
  | .readU8 => 0x01
  | .readU16 => 0x02
  | .readU32 => 0x03
  | .readU64 => 0x04
  | .readI16 => 0x05
  | .readI32 => 0x06
  | .takeSlice => 0x08
  | .remaining => 0x09
  | .position => 0x0A
  | .snapshot => 0x0B
  | .restore => 0x0C
  | .crcInit => 0x10
  | .crcByte => 0x11
  | .crcSpan => 0x12
  | .crcRead => 0x13
  | .crcCheck => 0x14

/-- The six read opcodes, the only ones for which ADV may be 1 (30_encoding.md R71). -/
def opcodeIsRead : Opcode → Bool
  | .readU8 | .readU16 | .readU32 | .readU64 | .readI16 | .readI32 => true
  | .takeSlice | .remaining | .position | .snapshot | .restore
  | .crcInit | .crcByte | .crcSpan | .crcRead | .crcCheck => false

/-- The constraint on IMM that is checked at decode (30_encoding.md R72, R74 (d)). -/
def immAllowed : Opcode → Imm → Bool
  | .takeSlice, _ => true
  | .crcSpan, _ => true
  | .crcByte, imm => imm.extractLsb' 8 8 == 0
  | .readU8, imm | .readU16, imm | .readU32, imm | .readU64, imm | .readI16, imm | .readI32, imm
  | .remaining, imm | .position, imm | .snapshot, imm | .restore, imm
  | .crcInit, imm | .crcRead, imm | .crcCheck, imm => imm == 0

/-- OP of a command word: bits 7:0 (30_encoding.md R70). -/
def wordOp (w : Word) : Byte := w.extractLsb' 0 8
/-- ADV of a command word: bit 8 (R70). -/
def wordAdv (w : Word) : Bool := w.getLsbD 8
/-- RSV of a command word: bits 15:9 (R70). -/
def wordRsv (w : Word) : BitVec 7 := w.extractLsb' 9 7
/-- IMM of a command word: bits 31:16 (R70). -/
def wordImm (w : Word) : Imm := w.extractLsb' 16 16

/-- Why a word is not well-formed: the conditions of 30_encoding.md R74. Whichever it is, the block
raises the same IllegalCommand (R201); the names are the model's. -/
inductive DecodeError where
  /-- R74 (a): OP is unassigned (R75). -/
  | unassignedOpcode (op : Byte)
  /-- R74 (b): RSV is not 0. -/
  | reservedNotZero
  /-- R74 (c): ADV is 1 on a command that is not a read. -/
  | advanceNotAllowed
  /-- R74 (d): IMM breaks its constraint. -/
  | immediateNotAllowed
deriving DecidableEq, Repr

/-- The command of an opcode with its operands. -/
def instrOf (op : Opcode) (adv : Bool) (imm : Imm) : Instr :=
  match op with
  | .readU8 => .readU8 adv
  | .readU16 => .readU16 adv
  | .readU32 => .readU32 adv
  | .readU64 => .readU64 adv
  | .readI16 => .readI16 adv
  | .readI32 => .readI32 adv
  | .takeSlice => .takeSlice imm
  | .remaining => .remaining
  | .position => .position
  | .snapshot => .snapshot
  | .restore => .restore
  | .crcInit => .crcInit
  | .crcByte => .crcByte imm
  | .crcSpan => .crcSpan imm
  | .crcRead => .crcRead
  | .crcCheck => .crcCheck

/-- The decoder: the command of a well-formed word, and for every other word the condition of
30_encoding.md R74 that it breaks. -/
def decode (w : Word) : Except DecodeError Instr :=
  match opcodeOf (wordOp w) with
  | none => .error (.unassignedOpcode (wordOp w))
  | some op =>
    if wordRsv w ≠ 0 then .error .reservedNotZero
    else if wordAdv w = true ∧ opcodeIsRead op = false then .error .advanceNotAllowed
    else if immAllowed op (wordImm w) = false then .error .immediateNotAllowed
    else .ok (instrOf op (wordAdv w) (wordImm w))

/-- The command read from an opcode-table row's word `w` of `nbits` bits, every bit above them 0. -/
def decodeTableWord (nbits w : Nat) : Option Instr :=
  match decode (BitVec.ofNat 32 (w % 2 ^ nbits)) with
  | .ok i => some i
  | .error _ => none

/-- Format C of 30_encoding.md R70, from the most significant field down: IMM, RSV = 0, ADV, OP. -/
def packWord (imm : Imm) (adv : Bool) (op : Byte) : Word :=
  imm ++ (0 : BitVec 7) ++ BitVec.ofBool adv ++ op

/-- The opcode of a command. -/
def instrOpcode : Instr → Opcode
  | .readU8 _ => .readU8
  | .readU16 _ => .readU16
  | .readU32 _ => .readU32
  | .readU64 _ => .readU64
  | .readI16 _ => .readI16
  | .readI32 _ => .readI32
  | .takeSlice _ => .takeSlice
  | .remaining => .remaining
  | .position => .position
  | .snapshot => .snapshot
  | .restore => .restore
  | .crcInit => .crcInit
  | .crcByte _ => .crcByte
  | .crcSpan _ => .crcSpan
  | .crcRead => .crcRead
  | .crcCheck => .crcCheck

/-- The ADV field of a command: its advance flag for a read, 0 for the others (30_encoding.md R71). -/
def instrAdv : Instr → Bool
  | .readU8 adv | .readU16 adv | .readU32 adv | .readU64 adv | .readI16 adv | .readI32 adv => adv
  | .takeSlice _ | .remaining | .position | .snapshot | .restore
  | .crcInit | .crcByte _ | .crcSpan _ | .crcRead | .crcCheck => false

/-- The IMM field of a command: its operand, 0 where it has none (30_encoding.md R72). -/
def instrImm : Instr → Imm
  | .takeSlice n => n
  | .crcByte imm => imm
  | .crcSpan start => start
  | .readU8 _ | .readU16 _ | .readU32 _ | .readU64 _ | .readI16 _ | .readI32 _
  | .remaining | .position | .snapshot | .restore | .crcInit | .crcRead | .crcCheck => 0

/-- The encoder: the word of a command (30_encoding.md R70 to R73). -/
def encode (i : Instr) : Word :=
  packWord (instrImm i) (instrAdv i) (opcodeNumber (instrOpcode i))

end Sys2Proof
end

