-- ==== Sys2Proof/Config.lean ====
section
/-!
DEFINITION. The implementation parameters of 00_scope.md R8. The client's open parameter `TS_VALID`
(92_eei_decisions.md D28) is an argument of the client in Machine/FrameCheck.lean.
-/
namespace Sys2Proof

/-- The parameters of one block that a model takes as arguments (00_scope.md R8). -/
structure Params where
  /-- `MAX_LEN`: the largest buffer, in bytes, that LOAD accepts. -/
  maxLen : Nat
  /-- `SNAP_DEPTH`: the number of entries in the snapshot stack. -/
  snapDepth : Nat
  /-- `ADDR_W`: the width in bits of POS, LEN, offsets and the slice length. -/
  addrW : Nat
deriving DecidableEq, Repr

/-- What the spec requires of the parameters: `MAX_LEN <= 2^ADDR_W - 1` and `SNAP_DEPTH` at least 1
(00_scope.md R8), and `MAX_LEN` at most 65535 (92_eei_decisions.md D16, D17), so that every offset in the
buffer fits the 16-bit registers of 10_state.md R29. -/
abbrev Params.Legal (p : Params) : Prop :=
  p.maxLen ≤ 2 ^ p.addrW - 1 ∧ p.maxLen ≤ 65535 ∧ 1 ≤ p.snapDepth

/-- The values of the parameters for this hardware (00_scope.md R8; D16, D10, D17). -/
def Params.hardware : Params := { maxLen := 1280, snapDepth := 4, addrW := 16 }

/-- What a register of `ADDR_W` bits holds after a write of `n`: its low `ADDR_W` bits (00_scope.md R8, R9). -/
def Params.narrow (p : Params) (n : Nat) : Nat := n % 2 ^ p.addrW

end Sys2Proof
end

