-- ==== Sys2Proof/Machine/State.lean ====
section
/-!
DEFINITION. The state of the block (10_state.md), the actions its environment asks of it and what they
get back (70_reset_and_hazards.md R223), the ways the model stops, and the state after reset
(10_state.md R34).
-/
namespace Sys2Proof.Machine

/-- The buffer BUF (10_state.md R21) as its valid bytes, addresses strictly rising. An address that is
not listed holds no value (R21: an entry at index LEN or above holds no value). -/
abbrev Memory := List Host.Cell

/-- The canonical form of a memory: its addresses strictly rise. An unlisted address reads as no value,
which no entry equals. -/
def Memory.wf : Memory → Bool
  | [] => true
  | [_] => true
  | (a, _) :: (b, y) :: rest => decide (a < b) && Memory.wf ((b, y) :: rest)

/-- What the host and the client can ask of the block (70_reset_and_hazards.md R223). -/
inductive Action where
  /-- RESET (R220). -/
  | reset
  /-- LOAD of a byte sequence (R222). -/
  | load (bytes : List Byte)
  /-- CMD: one command word on the command port (30_encoding.md R70). -/
  | cmd (word : Word)
  /-- REG_READ of a register number (10_state.md R33). -/
  | regRead (number : BitVec 8)
deriving DecidableEq, Repr

/-- What an action gets back (70_reset_and_hazards.md R223). RESET and LOAD get nothing. -/
inductive Response where
  /-- The response to CMD: STATUS, and RESULT when `STATUS.RVALID = 1`. -/
  | cmd (status : Word) (result : Option Value)
  /-- The word a REG_READ returns. -/
  | reg (word : Word)
deriving DecidableEq, Repr

/-- The state of one block: its registers and its buffer, and nothing that 10_state.md R30 excludes. -/
structure Block where
  /-- BUF (10_state.md R21). -/
  buf : Memory
  /-- LEN, of `ADDR_W` bits: the number of valid bytes in BUF (R22). -/
  len : Nat
  /-- POS, of `ADDR_W` bits: the offset of the next byte a read will return (R23). -/
  pos : Nat
  /-- The live snapshots `SNAP[0 .. SP-1]`, of `ADDR_W` bits each, in that order (R25): SP is the list's
  length. -/
  snap : List Nat
  /-- RESULT: the value the last value-producing command returned (R26). It holds no value while RVALID
  is 0: nothing reads it then. -/
  result : Value
  /-- RVALID, STATUS[8] (R26, R28). -/
  rvalid : Bool
  /-- CRC: the running CRC-16 (R27). -/
  crc : Crc
  /-- CODE, STATUS[7:0]: 0, or the code of the first error since the last LOAD or reset (R28). -/
  code : BitVec 8
  /-- ERR_OFFSET (R29). -/
  errOffset : ErrInfo
  /-- ERR_NEEDED (R29). -/
  errNeeded : ErrInfo
  /-- ERR_AVAIL (R29). -/
  errAvail : ErrInfo
  /-- ERR_CMD: the command word that raised the error (R29). -/
  errCmd : Word
deriving DecidableEq, Repr

/-- A block, with the parameters it is built with, what its environment asks of it and what it answered. The
last three are not state of the block (10_state.md R30): they stand here because `step` has no other
argument (notes/assumptions/1.md, 3.md and 4.md). -/
structure State extends Block where
  /-- The model's own: the parameters of this block (00_scope.md R8), which no action changes. -/
  params : Params
  /-- The model's own: the actions asked for and not yet taken, next first (70_reset_and_hazards.md
  R223). The command stream is the client's, not state of the block (10_state.md R30). -/
  pending : List Action
  /-- The model's own: what the last action got back (70_reset_and_hazards.md R223). -/
  response : Option Response
deriving DecidableEq, Repr

/-- Why the model stops with a fault. The block's own errors are not among them: they are latched in
CODE, and the block goes on (60_exceptions.md R203, R204). -/
inductive Fault where
  /-- A read of the buffer met an offset that holds no byte (10_state.md R21, 93_implementation_defined.md
  U3). Raised by the six reads and CRC_SPAN. Safe: the spec gives no value there, and no state that the
  block can reach does it. -/
  | noByteAt (offset : Nat)
deriving DecidableEq, Repr

/-- Why the model refuses an action. -/
inductive Refusal where
  /-- The instruction has no meaning in the model. No instruction of this model is in that case. Safe. -/
  | notModelled (mnemonic : String)
  /-- A LOAD of more than MAX_LEN bytes: "refused: it has no step in a model" (70_reset_and_hazards.md
  R222, R223; U9). Raised by the host's LOAD. Safe. -/
  | loadTooLong (length : Nat)
  /-- A host read of a register that has no value: RESULT while RVALID is 0, a dead snapshot entry, a
  number not in the map (10_state.md R33; U1, U2, U4). Raised by REG_READ. Safe. -/
  | registerHasNoValue (number : BitVec 8)
  /-- A use of a slice descriptor after the LOAD or reset that ended its view (41_cursor_control.md R121;
  U10). Raised by the client's slice views, not by `step`. Safe. -/
  | staleDescriptor
  /-- A client program with a SNAPSHOT that no RESTORE matches (41_cursor_control.md R126; U11). Raised by
  the check of client programs, not by `step`. Safe. -/
  | unmatchedSnapshot
deriving DecidableEq, Repr

/-- The block after reset, and at power-up (10_state.md R34, 70_reset_and_hazards.md R220). R34 gives RESULT
no value: its 0 is a DESIGN CHOICE (unsafe, notes/assumptions/5.md), which nothing can read while RVALID
is 0. -/
def Block.reset : Block where
  buf := []
  len := 0
  pos := 0
  snap := []
  result := 0
  rvalid := false
  crc := 0x0000
  code := 0
  errOffset := 0
  errNeeded := 0
  errAvail := 0
  errCmd := 0

/-- A block with the parameters `p` (00_scope.md R8) after reset, with nothing asked of it. -/
def State.powerUp (p : Params) : State := { Block.reset with params := p, pending := [], response := none }

/-- The state after reset of the block with this hardware's parameters (00_scope.md R8; 10_state.md R34). -/
def State.reset : State := State.powerUp Params.hardware

end Sys2Proof.Machine
end

