-- ==== Sys2Proof/Machine/Flags.lean ====
section
/-!
DEFINITION. The two flags of the block and the status register that shows them (10_state.md R28, R31).
No command computes an arithmetic condition.
-/
namespace Sys2Proof.Machine

/-- The error flag, `STATUS.CODE != 0` (10_state.md R31). -/
def State.errored (s : State) : Bool := s.code != 0

/-- STATUS (10_state.md R28): reserved bits 31:9 hard-wired 0, RVALID in bit 8, CODE in bits 7:0. -/
def State.status (s : State) : Word := (0 : BitVec 23) ++ BitVec.ofBool s.rvalid ++ s.code

/-- CODE of a status word, bits 7:0 (10_state.md R28). -/
def statusCode (status : Word) : BitVec 8 := status.extractLsb' 0 8

/-- What a value-producing command does to RESULT and RVALID (10_state.md R26). -/
def State.setResult (s : State) (v : Value) : State := { s with result := v, rvalid := true }

/-- RESULT where it holds a value: while RVALID is 1 (10_state.md R26). -/
def State.resultValue (s : State) : Option Value := if s.rvalid then some s.result else none

end Sys2Proof.Machine
end

