-- ==== Sys2Proof/Machine/Operands.lean ====
section
/-!
DEFINITION. Operand forms: how the bytes a read meets become a value and its 64-bit image
(00_scope.md R10, 40_cursor_reads.md R101), the data byte of CRC_BYTE (30_encoding.md R72) and the slice
descriptor (41_cursor_control.md R120).
-/
namespace Sys2Proof.Machine

/-- The signedness of a read (40_cursor_reads.md R101). -/
inductive Signedness where
  | unsigned
  | signed
deriving DecidableEq, Repr

/-- `be`: the unsigned big-endian value of a byte list, the first byte most significant
(00_scope.md R10, 20_memory.md R51). -/
def bigEndian (bytes : List Byte) : Nat :=
  bytes.foldl (fun acc b => acc * 256 + b.toNat) 0

/-- The integer a read of width `w` bytes returns, from its unsigned value `u` (40_cursor_reads.md R101):
for a signed read, the two's-complement value. -/
def readValue (w : Nat) : Signedness → Nat → Int
  | .unsigned, u => u
  | .signed, u => if u.testBit (8 * w - 1) then (u : Int) - 2 ^ (8 * w) else u

/-- The image of a read's integer in RESULT: `zext_64` of an unsigned value, `sext_64` of a signed one
(40_cursor_reads.md R101; D8). -/
def readImage (w : Nat) (sign : Signedness) (bytes : List Byte) : Value :=
  BitVec.ofInt 64 (readValue w sign (bigEndian bytes))

/-- The data byte `b = IMM[7:0]` of CRC_BYTE (30_encoding.md R72). -/
def immByte (imm : Imm) : Byte := imm.extractLsb' 0 8

/-- The slice descriptor `zext_32(POS) ++ zext_32(n)`: base in bits 63:32, length in bits 31:0
(41_cursor_control.md R120). -/
def sliceDescriptor (base : Nat) (n : Imm) : Value := BitVec.ofNat 32 base ++ n.zeroExtend 32

end Sys2Proof.Machine
end

