-- ==== Sys2Proof/Machine/Ops.lean ====
section
/-!
DEFINITION. The named operations over the buffer and the registers: reading bytes, raising an error
(60_exceptions.md R203) and leaving the error state (R208: only LOAD and reset do), the frame every
command stands in (R204, R205), the shared bodies of the commands, and the host's register read
(10_state.md R33).
-/
namespace Sys2Proof.Machine

/-! ### The buffer -/

/-- The byte at an offset of the buffer; none where it holds no value (10_state.md R21). -/
def Memory.read : Memory → Nat → Option Byte
  | [], _ => none
  | (a, b) :: rest, i => if a = i then some b else Memory.read rest i

/-- `MemRead(addr, n)` (00_scope.md R10): the bytes at `addr .. addr+n-1`, or the first of these offsets
that holds no byte. -/
def Memory.readBytes (m : Memory) : Nat → Nat → Except Nat (List Byte)
  | _, 0 => .ok []
  | addr, n + 1 =>
    match m.read addr with
    | none => .error addr
    | some b =>
      match Memory.readBytes m (addr + 1) n with
      | .error a => .error a
      | .ok bs => .ok (b :: bs)

/-- The memory whose bytes from `addr` up are the given ones, and that holds no other byte: what LOAD
makes of BUF (70_reset_and_hazards.md R222). -/
def Memory.ofBytes : Nat → List Byte → Memory
  | _, [] => []
  | addr, b :: bs => (addr, b) :: Memory.ofBytes (addr + 1) bs

/-! ### Registers that are views -/

/-- SP: the number of live snapshots (10_state.md R25). -/
def State.sp (s : State) : Nat := s.snap.length

/-- `LEN - POS`: the bytes not yet consumed (40_cursor_reads.md R100, 41_cursor_control.md R122). -/
def State.avail (s : State) : Nat := s.len - s.pos

/-! ### Errors -/

/-- The errors the block raises, with what they record (60_exceptions.md R200, codes 1 to 6). -/
inductive BlockError where
  | truncatedInput (offset needed available : Nat)
  | crcMismatch
  | illegalCommand
  | snapshotOverflow
  | snapshotUnderflow
  | noResult
deriving DecidableEq, Repr

/-- The code of an error (60_exceptions.md R200). -/
def errorCode : BlockError → BitVec 8
  | .truncatedInput _ _ _ => 1
  | .crcMismatch => 2
  | .illegalCommand => 3
  | .snapshotOverflow => 4
  | .snapshotUnderflow => 5
  | .noResult => 6

/-- `raise E(info)` for the command word `w` (60_exceptions.md R203): CODE and the error-information
registers, of 16 bits each (10_state.md R29, notes/assumptions/4.md), are written, and every other register keeps the value it had
before the command. -/
def raise (e : BlockError) (w : Word) (s : State) : State :=
  match e with
  | .truncatedInput offset needed available =>
    { s with
      code := errorCode e, errCmd := w
      errOffset := BitVec.ofNat 16 offset, errNeeded := BitVec.ofNat 16 needed
      errAvail := BitVec.ofNat 16 available }
  | .crcMismatch | .illegalCommand | .snapshotOverflow | .snapshotUnderflow | .noResult =>
    { s with code := errorCode e, errCmd := w, errOffset := 0, errNeeded := 0, errAvail := 0 }

/-- What the body of a command rule does once it runs: its effect, or a `raise` before any effect
(60_exceptions.md R203: every rule checks before it writes), or a stop of the model. -/
inductive Effect where
  | done (s : State)
  | raised (e : BlockError)
  | stopped (f : Fault)
deriving DecidableEq, Repr

/-- Every command (60_exceptions.md R204, R205): with an error latched it has no effect at all; otherwise
its body runs, and an error it raises is latched over the state before the command. -/
def command (w : Word) (body : State → Effect) (s : State) : Host.Outcome State Fault Refusal :=
  if s.errored then .next s
  else
    match body s with
    | .done s' => .next s'
    | .raised e => .next (raise e w s)
    | .stopped f => .fault f

/-! ### Leaving the error state -/

/-- What RESET makes of the block (10_state.md R34, 70_reset_and_hazards.md R220): the block as it is at
power-up. The parameters and the actions not yet taken are not the block's (10_state.md R30). -/
def State.doReset (s : State) : State := { s with toBlock := Block.reset }

/-- LOAD(bytes) of at most MAX_LEN bytes (70_reset_and_hazards.md R222). RVALID is cleared, so RESULT
holds no value; its contents, which nothing can read, are left in place (notes/assumptions/6.md). -/
def State.load (bytes : List Byte) (s : State) : State :=
  { s with
    buf := Memory.ofBytes 0 bytes, len := s.params.narrow bytes.length
    pos := 0, snap := [], crc := 0x0000
    code := 0, rvalid := false
    errOffset := 0, errNeeded := 0, errAvail := 0, errCmd := 0 }

/-! ### Shared bodies of the commands -/

/-- A value-producing command that needs no check (41_cursor_control.md R122, R123; 42_crc.md R144). -/
def produce (v : State → Value) (s : State) : Effect := .done (s.setResult (v s))

/-- The read body `Read(w, s, word)` (40_cursor_reads.md R100, R101). -/
def readBody (w : Nat) (sign : Signedness) (advance : Bool) (s : State) : Effect :=
  if w > s.avail then .raised (.truncatedInput s.pos w s.avail)
  else
    match s.buf.readBytes s.pos w with
    | .error a => .stopped (.noByteAt a)
    | .ok bytes =>
      let s := s.setResult (readImage w sign bytes)
      .done (if advance then { s with pos := s.params.narrow (s.pos + w) } else s)

/-- The body of TAKE_SLICE (41_cursor_control.md R120). -/
def takeSliceBody (n : Imm) (s : State) : Effect :=
  if n.toNat > s.avail then .raised (.truncatedInput s.pos n.toNat s.avail)
  else .done { s.setResult (sliceDescriptor s.pos n) with pos := s.params.narrow (s.pos + n.toNat) }

/-- The body of SNAPSHOT (41_cursor_control.md R124): `SNAP[SP] <- POS; SP <- SP + 1`. -/
def snapshotBody (s : State) : Effect :=
  if s.sp = s.params.snapDepth then .raised .snapshotOverflow
  else .done { s with snap := s.snap ++ [s.pos] }

/-- The body of RESTORE (41_cursor_control.md R125): `SP <- SP - 1; POS <- SNAP[SP]`. -/
def restoreBody (s : State) : Effect :=
  match s.snap.getLast? with
  | none => .raised .snapshotUnderflow
  | some p => .done { s with snap := s.snap.dropLast, pos := p }

/-- The body of CRC_SPAN (42_crc.md R142): fold `BUF[A .. POS-1]` into CRC. -/
def crcSpanBody (start : Imm) (s : State) : Effect :=
  if start.toNat > s.pos then .raised .illegalCommand
  else
    match s.buf.readBytes start.toNat (s.pos - start.toNat) with
    | .error a => .stopped (.noByteAt a)
    | .ok bytes => .done { s with crc := crc16 s.crc bytes }

/-- The body of CRC_BYTE (42_crc.md R143), with the check of its immediate (30_encoding.md R72). -/
def crcByteBody (imm : Imm) (s : State) : Effect :=
  if imm.extractLsb' 8 8 ≠ 0 then .raised .illegalCommand
  else .done { s with crc := crc16Step s.crc (immByte imm) }

/-- The body of CRC_CHECK (42_crc.md R145): NoResult before CrcMismatch (60_exceptions.md R205). -/
def crcCheckBody (s : State) : Effect :=
  if s.rvalid = false then .raised .noResult
  else if s.crc ≠ s.result.extractLsb' 0 16 then .raised .crcMismatch
  else .done s

/-! ### The host's register read -/

/-- The value of the register of a number, narrower registers zero-extended (10_state.md R33). None where
the read has no value: RESULT while RVALID is 0, a snapshot entry that is not live, a number that is not
in the map. -/
def State.registerValue (s : State) : Nat → Option Word
  | 0x00 => some s.status
  | 0x01 => some (BitVec.ofNat 32 s.pos)
  | 0x02 => some (BitVec.ofNat 32 s.len)
  | 0x03 => s.resultValue.map fun v => v.extractLsb' 0 32
  | 0x04 => s.resultValue.map fun v => v.extractLsb' 32 32
  | 0x05 => some (s.crc.zeroExtend 32)
  | 0x06 => some ((BitVec.ofNat 16 s.sp).zeroExtend 32)
  | 0x07 => some (s.errOffset.zeroExtend 32)
  | 0x08 => some (s.errNeeded.zeroExtend 32)
  | 0x09 => some (s.errAvail.zeroExtend 32)
  | 0x0A => some s.errCmd
  | 0x0B | 0x0C | 0x0D | 0x0E | 0x0F => none
  | i + 0x10 => if i < s.params.snapDepth then s.snap[i]?.map fun p => BitVec.ofNat 32 p else none

/-- REG_READ: the host's read of a register by its 8-bit number (10_state.md R33). A read that has no value
is refused. -/
def State.readRegister (s : State) (number : BitVec 8) : Except Refusal Word :=
  match s.registerValue number.toNat with
  | some word => .ok word
  | none => .error (.registerHasNoValue number)

end Sys2Proof.Machine
end

