-- ==== Sys2Proof/Machine/CrcUnit.lean ====
section
/-!
DEFINITION. The commands of the CRC unit (42_crc.md).
-/
namespace Sys2Proof.Machine

/-- CRC_INIT (42_crc.md R141): `CRC <- 0x0000`. -/
def execCrcInit (s : State) : Host.Outcome State Fault Refusal :=
  command (encode .crcInit) (fun s => .done { s with crc := 0x0000 }) s

/-- CRC_BYTE b (R143). -/
def execCrcByte (imm : Imm) (s : State) : Host.Outcome State Fault Refusal :=
  command (encode (.crcByte imm)) (crcByteBody imm) s

/-- CRC_SPAN A (R142). -/
def execCrcSpan (start : Imm) (s : State) : Host.Outcome State Fault Refusal :=
  command (encode (.crcSpan start)) (crcSpanBody start) s

/-- CRC_READ (R144): `RESULT <- zext_64(CRC)`. -/
def execCrcRead (s : State) : Host.Outcome State Fault Refusal :=
  command (encode .crcRead) (produce fun s => s.crc.zeroExtend 64) s

/-- CRC_CHECK (R145). -/
def execCrcCheck (s : State) : Host.Outcome State Fault Refusal :=
  command (encode .crcCheck) crcCheckBody s

end Sys2Proof.Machine
end

