-- ==== Sys2Proof/Machine/CursorControl.lean ====
section
/-!
DEFINITION. The slice, position and snapshot commands (41_cursor_control.md).
-/
namespace Sys2Proof.Machine

/-- TAKE_SLICE n (41_cursor_control.md R120). -/
def execTakeSlice (n : Imm) (s : State) : Host.Outcome State Fault Refusal :=
  command (encode (.takeSlice n)) (takeSliceBody n) s

/-- REMAINING (R122): `RESULT <- zext_64(LEN - POS)`. -/
def execRemaining (s : State) : Host.Outcome State Fault Refusal :=
  command (encode .remaining) (produce fun s => BitVec.ofNat 64 s.avail) s

/-- POSITION (R123): `RESULT <- zext_64(POS)`. -/
def execPosition (s : State) : Host.Outcome State Fault Refusal :=
  command (encode .position) (produce fun s => BitVec.ofNat 64 s.pos) s

/-- SNAPSHOT (R124). -/
def execSnapshot (s : State) : Host.Outcome State Fault Refusal :=
  command (encode .snapshot) snapshotBody s

/-- RESTORE (R125). -/
def execRestore (s : State) : Host.Outcome State Fault Refusal :=
  command (encode .restore) restoreBody s

end Sys2Proof.Machine
end

