-- ==== Sys2Proof/Machine/CursorReads.lean ====
section
/-!
DEFINITION. The six cursor reads (40_cursor_reads.md). ERR_CMD records the command's own word, which is
its encoding (notes/assumptions/10.md).
-/
namespace Sys2Proof.Machine

/-- READ_U8 (40_cursor_reads.md R102): `Read(1, unsigned, word)`. -/
def execReadU8 (advance : Bool) (s : State) : Host.Outcome State Fault Refusal :=
  command (encode (.readU8 advance)) (readBody 1 .unsigned advance) s

/-- READ_U16 (R103): `Read(2, unsigned, word)`. -/
def execReadU16 (advance : Bool) (s : State) : Host.Outcome State Fault Refusal :=
  command (encode (.readU16 advance)) (readBody 2 .unsigned advance) s

/-- READ_U32 (R104): `Read(4, unsigned, word)`. -/
def execReadU32 (advance : Bool) (s : State) : Host.Outcome State Fault Refusal :=
  command (encode (.readU32 advance)) (readBody 4 .unsigned advance) s

/-- READ_U64 (R105): `Read(8, unsigned, word)`. -/
def execReadU64 (advance : Bool) (s : State) : Host.Outcome State Fault Refusal :=
  command (encode (.readU64 advance)) (readBody 8 .unsigned advance) s

/-- READ_I16 (R106): `Read(2, signed, word)`. -/
def execReadI16 (advance : Bool) (s : State) : Host.Outcome State Fault Refusal :=
  command (encode (.readI16 advance)) (readBody 2 .signed advance) s

/-- READ_I32 (R107): `Read(4, signed, word)`. -/
def execReadI32 (advance : Bool) (s : State) : Host.Outcome State Fault Refusal :=
  command (encode (.readI32 advance)) (readBody 4 .signed advance) s

end Sys2Proof.Machine
end

