-- ==== Sys2Proof/Machine/Dispatch.lean ====
section
/-!
DEFINITION. Which meaning each command has: one arm per constructor.
-/
namespace Sys2Proof.Machine

def exec (i : Instr) (s : State) : Host.Outcome State Fault Refusal :=
  match i with
  | .readU8 advance => Sys2Proof.Machine.execReadU8 advance s
  | .readU16 advance => Sys2Proof.Machine.execReadU16 advance s
  | .readU32 advance => Sys2Proof.Machine.execReadU32 advance s
  | .readU64 advance => Sys2Proof.Machine.execReadU64 advance s
  | .readI16 advance => Sys2Proof.Machine.execReadI16 advance s
  | .readI32 advance => Sys2Proof.Machine.execReadI32 advance s
  | .takeSlice n => Sys2Proof.Machine.execTakeSlice n s
  | .remaining => Sys2Proof.Machine.execRemaining s
  | .position => Sys2Proof.Machine.execPosition s
  | .snapshot => Sys2Proof.Machine.execSnapshot s
  | .restore => Sys2Proof.Machine.execRestore s
  | .crcInit => Sys2Proof.Machine.execCrcInit s
  | .crcByte imm => Sys2Proof.Machine.execCrcByte imm s
  | .crcSpan start => Sys2Proof.Machine.execCrcSpan start s
  | .crcRead => Sys2Proof.Machine.execCrcRead s
  | .crcCheck => Sys2Proof.Machine.execCrcCheck s

end Sys2Proof.Machine
end

