-- ==== Sys2Proof/Machine/HostPort.lean ====
section
/-!
DEFINITION. The host and client interface (70_reset_and_hazards.md R223): what the block does with each
action, and what the action gets back.
-/
namespace Sys2Proof.Machine

/-- The block with a command word: a well-formed word is executed by its rule, and any other raises
IllegalCommand, after the sticky test (30_encoding.md R74, 60_exceptions.md R201, R204, R205). -/
def runWord (w : Word) (s : State) : Host.Outcome State Fault Refusal :=
  match decode w with
  | .ok i => exec i s
  | .error _ => command w (fun _ => .raised .illegalCommand) s

/-- The response to CMD (70_reset_and_hazards.md R223): STATUS after the command, and RESULT when
`STATUS.RVALID = 1`. -/
def State.cmdResponse (s : State) : Response := .cmd s.status s.resultValue

/-- The end of a step: the action is taken, and got back `r`. -/
def State.answered (rest : List Action) (r : Option Response) (s : State) : State :=
  { s with pending := rest, response := r }

/-- One action of 70_reset_and_hazards.md R223, `rest` being the actions asked for after it. -/
def runAction (a : Action) (rest : List Action) (s : State) : Host.Outcome State Fault Refusal :=
  match a with
  | .reset => .next (s.doReset.answered rest none)
  | .load bytes =>
    if bytes.length > s.params.maxLen then .refused (.loadTooLong bytes.length)
    else .next ((s.load bytes).answered rest none)
  | .cmd w =>
    match runWord w s with
    | .next t => .next (t.answered rest (some t.cmdResponse))
    | .fault f => .fault f
    | .refused r => .refused r
  | .regRead number =>
    match s.readRegister number with
    | .ok word => .next (s.answered rest (some (.reg word)))
    | .error r => .refused r

/-- One step of the block: the next action asked for, or, with none, nothing: between commands the block
is idle and keeps all its state (60_exceptions.md R213). -/
def takeAction (s : State) : Host.Outcome State Fault Refusal :=
  match s.pending with
  | [] => .next s
  | a :: rest => runAction a rest s

/-- The state with a command word put on the command port, before every other action asked for. -/
def State.withCommand (s : State) (w : Word) : State := { s with pending := .cmd w :: s.pending }

end Sys2Proof.Machine
end

