-- ==== Sys2Proof/Machine/Step.lean ====
section
/-!
DEFINITION. One step of the block.
-/
namespace Sys2Proof.Machine

/-- One indivisible step (00_scope.md R11, 70_reset_and_hazards.md R223). -/
def step (s : State) : Host.Outcome State Fault Refusal := takeAction s

/-- The state in which the command of the low `nbits` bits of `w` is the one the block takes next. A
command is delivered whole on the command port (20_memory.md R53, R63): nothing is fetched from memory. -/
def State.withFetchWord (s : State) (nbits w : Nat) : State :=
  s.withCommand (BitVec.ofNat 32 (w % 2 ^ nbits))

end Sys2Proof.Machine
end

