-- ==== Sys2Proof/Machine/HexInput.lean ====
section
/-!
DEFINITION. The host's step before the block (43_frame_check.md R160): hex text becomes the bytes of a
LOAD, before any command runs.
-/
namespace Sys2Proof.Machine

/-- The value of a hex digit, `0-9 a-f A-F` (43_frame_check.md R160). -/
def hexDigit (c : Char) : Option Nat :=
  let n := c.toNat
  if 48 ≤ n ∧ n ≤ 57 then some (n - 48)
  else if 97 ≤ n ∧ n ≤ 102 then some (n - 87)
  else if 65 ≤ n ∧ n ≤ 70 then some (n - 55)
  else none

/-- Byte `k` is the value of characters `2k` (high nibble) and `2k+1` (low nibble); none for an odd
length or a character that is no hex digit (43_frame_check.md R160, D38). -/
def hexBytes : List Char → Option (List Byte)
  | [] => some []
  | [_] => none
  | hi :: lo :: rest =>
    match hexDigit hi, hexDigit lo, hexBytes rest with
    | some h, some l, some bs => some (BitVec.ofNat 8 (16 * h + l) :: bs)
    | _, _, _ => none

/-- What the host does with its hex text (43_frame_check.md R160). -/
inductive HostInput where
  /-- MalformedHexInput: the block is never loaded. -/
  | malformedHex
  /-- More than MAX_LEN bytes: the host does not load them, and the input has no outcome. -/
  | tooLong (length : Nat)
  /-- The host performs LOAD with these bytes. -/
  | load (bytes : List Byte)
deriving DecidableEq, Repr

/-- The host's step before the block, for a block with parameters `p` (43_frame_check.md R160). -/
def hostInput (p : Params) (text : List Char) : HostInput :=
  match hexBytes text with
  | none => .malformedHex
  | some bytes => if bytes.length > p.maxLen then .tooLong bytes.length else .load bytes

end Sys2Proof.Machine
end

