-- ==== Sys2Proof/Machine/Assembler.lean ====
section
/-!
DEFINITION. The assembler syntax of 30_encoding.md R77 and the pseudo-commands of R78: one line becomes
its command words, or does not assemble.
-/
namespace Sys2Proof.Machine

/-- A number's digits in a base, most significant first; none for no digit or a wrong one. -/
def digitsValue (base : Nat) : List Char → Option Nat
  | [] => none
  | ds => ds.foldl (fun acc c =>
      match acc, hexDigit c with
      | some n, some d => if d < base then some (n * base + d) else none
      | _, _ => none) (some 0)

/-- A number of the syntax: decimal, or `0x` and hexadecimal digits (30_encoding.md R77). -/
def numberValue : List Char → Option Nat
  | '0' :: 'x' :: ds => digitsValue 16 ds
  | ds => digitsValue 10 ds

/-- The lines that take no operand (30_encoding.md R77, R78): the mnemonics of R73, a read's `.PEEK` form
(ADV = 0), and the pseudo-commands `PEEK_x`. -/
def plainForms : List (String × Instr) :=
  [("READ_U8", .readU8 true), ("READ_U16", .readU16 true), ("READ_U32", .readU32 true),
   ("READ_U64", .readU64 true), ("READ_I16", .readI16 true), ("READ_I32", .readI32 true),
   ("READ_U8.PEEK", .readU8 false), ("READ_U16.PEEK", .readU16 false), ("READ_U32.PEEK", .readU32 false),
   ("READ_U64.PEEK", .readU64 false), ("READ_I16.PEEK", .readI16 false), ("READ_I32.PEEK", .readI32 false),
   ("PEEK_U8", .readU8 false), ("PEEK_U16", .readU16 false), ("PEEK_U32", .readU32 false),
   ("PEEK_U64", .readU64 false), ("PEEK_I16", .readI16 false), ("PEEK_I32", .readI32 false),
   ("REMAINING", .remaining), ("POSITION", .position), ("SNAPSHOT", .snapshot), ("RESTORE", .restore),
   ("CRC_INIT", .crcInit), ("CRC_READ", .crcRead), ("CRC_CHECK", .crcCheck)]

/-- The lines that take one number (30_encoding.md R77, R78), with the number's bound and the commands
they stand for. -/
def numberForms (n : Nat) : List (String × Nat × List Instr) :=
  [("TAKE_SLICE", 65535, [.takeSlice (BitVec.ofNat 16 n)]),
   ("CRC_BYTE", 255, [.crcByte (BitVec.ofNat 16 n)]),
   ("CRC_SPAN", 65535, [.crcSpan (BitVec.ofNat 16 n)]),
   ("SKIP", 65535, [.takeSlice (BitVec.ofNat 16 n)]),
   ("CRC_OVER", 65535, [.crcInit, .crcSpan (BitVec.ofNat 16 n)])]

/-- The white space between the words of a line (notes/assumptions/18.md). -/
def isBlank (c : Char) : Bool := c == ' ' || c == '\t' || c == '\r'

/-- The words of a line: maximal runs of characters that are not blank, up to the `;` of a comment. -/
def lineWords : List Char → List Char → List (List Char)
  | word, [] => if word.isEmpty then [] else [word.reverse]
  | word, c :: cs =>
    if c == ';' then (if word.isEmpty then [] else [word.reverse])
    else if isBlank c then
      (if word.isEmpty then lineWords [] cs else word.reverse :: lineWords [] cs)
    else lineWords (c :: word) cs

/-- The commands of a line's words; none if they break a rule of 30_encoding.md R77. -/
def assembleWords : List (List Char) → Option (List Instr)
  | [] => some []
  | [m] => (plainForms.find? fun f => f.1.toList == m).map fun f => [f.2]
  | [m, x] =>
    match numberValue x with
    | none => none
    | some n =>
      match (numberForms n).find? fun f => f.1.toList == m with
      | none => none
      | some (_, bound, is) => if n ≤ bound then some is else none
  | _ => none

/-- The command words of one line: none where it does not assemble (30_encoding.md R77); no word for a
line that holds only a comment or nothing. -/
def assembleLine (line : String) : Option (List Word) :=
  (assembleWords (lineWords [] line.toList)).map (List.map encode)

/-- The command words of a program, one line after the other. DESIGN CHOICE (notes/assumptions/18.md): a
program with a line that does not assemble gives no words at all, where 30_encoding.md R77 speaks of that
line only. -/
def assemble (lines : List String) : Option (List Word) :=
  lines.foldr (fun line rest =>
    match assembleLine line, rest with
    | some ws, some more => some (ws ++ more)
    | _, _ => none) (some [])

end Sys2Proof.Machine
end

