-- ==== Sys2Proof/Machine/ClientPrograms.lean ====
section
/-!
DEFINITION. What the spec asks of the block's users beside the commands: the check of a client program's
snapshots (41_cursor_control.md R126) and the use of slice descriptors (R121).
-/
namespace Sys2Proof.Machine

/-- Whether every SNAPSHOT of a program has a matching RESTORE before the program ends, snapshots nesting
last in first out (41_cursor_control.md R126). `opened` counts the snapshots not yet matched. -/
def snapshotsMatched : Nat → List Instr → Bool
  | opened, [] => opened == 0
  | opened, .snapshot :: rest => snapshotsMatched (opened + 1) rest
  | opened, .restore :: rest => snapshotsMatched (opened - 1) rest
  | opened, _ :: rest => snapshotsMatched opened rest

/-- The check of a client program (41_cursor_control.md R126): an ill-formed program is refused, and the
commands of any other are the actions to ask for. -/
def clientProgram (program : List Instr) : Except Refusal (List Action) :=
  if snapshotsMatched 0 program then .ok (program.map fun i => .cmd (encode i))
  else .error .unmatchedSnapshot

/-- The base of a slice descriptor, `RESULT[63:32]` (41_cursor_control.md R120). -/
def sliceBase (descriptor : Value) : Nat := (descriptor.extractLsb' 32 32).toNat

/-- The length of a slice descriptor, `RESULT[31:0]` (41_cursor_control.md R120). -/
def sliceLength (descriptor : Value) : Nat := (descriptor.extractLsb' 0 32).toNat

/-- Whether an action ends the views of the descriptors taken before it (41_cursor_control.md R121). -/
def endsViews : Action → Bool
  | .reset | .load _ => true
  | .cmd _ | .regRead _ => false

/-- The bytes a slice descriptor names, `BUF[base .. base+n-1]` (41_cursor_control.md R121). `since` is
the list of the actions the block took after the TAKE_SLICE that returned the descriptor: after a LOAD or
a reset among them the view names no bytes any more, and its use is refused (U10). -/
def sliceBytes (since : List Action) (descriptor : Value) (s : State) : Except Refusal (List Byte) :=
  if since.any endsViews then .error .staleDescriptor
  else
    match s.buf.readBytes (sliceBase descriptor) (sliceLength descriptor) with
    | .ok bytes => .ok bytes
    | .error _ => .error .staleDescriptor

/-- The LOAD by which the host reads a nested field in another block (41_cursor_control.md R121). -/
def nestedLoad (since : List Action) (descriptor : Value) (s : State) : Except Refusal Action :=
  match sliceBytes since descriptor s with
  | .ok bytes => .ok (.load bytes)
  | .error r => .error r

end Sys2Proof.Machine
end

