-- ==== Sys2Proof/Machine/Instances.lean ====
section
/-!
DEFINITION. Several blocks side by side (60_exceptions.md R214, 10_state.md R20): the product of
single-block models. They share no state; the number of the block that moves is chosen from outside, so
that every interleaving is a run.
-/
namespace Sys2Proof.Machine

/-- The states of several blocks. -/
abbrev Blocks := List State

/-- Block `k` takes one step and every other keeps its state (60_exceptions.md R214). Where there is no
block `k`, nothing moves. -/
def stepBlock (k : Nat) (blocks : Blocks) : Host.Outcome Blocks Fault Refusal :=
  match blocks[k]? with
  | none => .next blocks
  | some s =>
    match step s with
    | .next t => .next (blocks.set k t)
    | .fault f => .fault f
    | .refused r => .refused r

end Sys2Proof.Machine
end

