-- ==== Sys2Proof/Machine/FrameCheck.lean ====
section
/-!
DEFINITION. The Codec 8 frame check (43_frame_check.md): the client that 00_scope.md R6 puts in scope. It
drives the block through its command port, one `step` for each command, and makes its own comparisons
between commands. `TS_VALID` is its argument (92_eei_decisions.md D28).
-/
namespace Sys2Proof.Machine

/-! ### What the client reports -/

/-- The reasons a frame is rejected (60_exceptions.md R200): the block's errors that the client passes on
verbatim (R206), and the host's and the client's own. -/
inductive Rejection where
  | truncatedInput (offset needed available : ErrInfo)
  | crcMismatch
  | malformedHexInput
  | badPreamble
  | unsupportedCodec
  | recordCountMismatch
  | lengthMismatch
  | invalidPriority (value : Nat)
  | ioCountMismatch (declared actual : Nat)
  | duplicateIoId (id width : Nat)
  | invalidTimestamp (value : Value)
deriving DecidableEq, Repr

/-- The code of a rejection (60_exceptions.md R200). -/
def rejectionCode : Rejection → BitVec 8
  | .truncatedInput _ _ _ => 1
  | .crcMismatch => 2
  | .malformedHexInput => 16
  | .badPreamble => 17
  | .unsupportedCodec => 18
  | .recordCountMismatch => 19
  | .lengthMismatch => 20
  | .invalidPriority _ => 21
  | .ioCountMismatch _ _ => 22
  | .duplicateIoId _ _ => 23
  | .invalidTimestamp _ => 24

/-- One group of the I/O element block: the width of its values in bytes, and its (id, value) elements in
order (43_frame_check.md R167). -/
structure IoGroup where
  width : Nat
  elements : List (Nat × Nat)
deriving DecidableEq, Repr

/-- The I/O element block (43_frame_check.md R167). -/
structure IoBlock where
  eventId : Nat
  total : Nat
  groups : List IoGroup
deriving DecidableEq, Repr

/-- One record (43_frame_check.md R166), its values raw. -/
structure Sample where
  timestamp : Value
  priority : Nat
  longitude : Int
  latitude : Int
  altitude : Int
  angle : Nat
  satellites : Nat
  speed : Nat
  io : IoBlock
deriving DecidableEq, Repr

/-- The packet a valid frame gives (43_frame_check.md R172). -/
structure Packet where
  preamble : Nat
  dataLength : Nat
  codec : Nat
  recordCount1 : Nat
  samples : List Sample
  recordCount2 : Nat
  storedCrc : Crc
deriving DecidableEq, Repr

/-- Why a decode ends before `Valid` (43_frame_check.md R162). -/
inductive Stop where
  /-- `Rejected(reason)`. -/
  | rejected (reason : Rejection)
  /-- The block reported an error that this client never causes: a fault of the client, never a
  rejection (43_frame_check.md R173). -/
  | clientFault (code : BitVec 8)
  /-- The block's response carried no value where the client needs one, which never happens to a
  value-producing command that succeeded. -/
  | noAnswer
  /-- The model stopped. -/
  | stopped (f : Fault)
  /-- The model refused. -/
  | refused (r : Refusal)
deriving DecidableEq, Repr

/-! ### Issuing commands -/

/-- A part of the client: it may end the decode, and it leaves the block in a state either way. -/
abbrev Client (α : Type) := ExceptT Stop (StateM State) α

/-- The client's reading of an error the block reports (43_frame_check.md R162, R173): TruncatedInput and
CrcMismatch are returned verbatim. -/
def blockStop (s : State) : Stop :=
  if s.code = 1 then .rejected (.truncatedInput s.errOffset s.errNeeded s.errAvail)
  else if s.code = 2 then .rejected .crcMismatch
  else .clientFault s.code

/-- Issue one command and read its response (43_frame_check.md R162): with `CODE != 0` the decode ends
with the block's error. -/
def issue (i : Instr) : Client (Option Value) := do
  let s ← get
  match step (s.withCommand (encode i)) with
  | .fault f => throw (.stopped f)
  | .refused r => throw (.refused r)
  | .next t =>
    set t
    match t.response with
    | some (.cmd status value) => if statusCode status = 0 then pure value else throw (blockStop t)
    | _ => throw .noAnswer

/-- Issue a value-producing command and take its value. -/
def issueValue (i : Instr) : Client Value := do
  match ← issue i with
  | some v => pure v
  | none => throw .noAnswer

/-- A consuming read of an unsigned field (40_cursor_reads.md R101). -/
def readNat (i : Instr) : Client Nat := do return (← issueValue i).toNat

/-- A consuming read of a signed field (40_cursor_reads.md R101). -/
def readInt (i : Instr) : Client Int := do return (← issueValue i).toInt

/-- End the decode with a reason of the client's own, if `bad`. -/
def rejectIf (bad : Bool) (reason : Rejection) : Client Unit :=
  if bad then throw (.rejected reason) else pure ()

/-! ### The algorithm -/

/-- Framing (43_frame_check.md R163): the preamble, the declared length and the codec id. -/
def framing : Client (Nat × Nat × Nat) := do
  let preamble ← readNat (.readU32 true)
  rejectIf (preamble != 0) .badPreamble
  let dataLength ← readNat (.readU32 true)
  let codec ← readNat (.readU8 true)
  rejectIf (codec != 0x08) .unsupportedCodec
  return (preamble, dataLength, codec)

/-- The elements of one group (43_frame_check.md R167): `count` more of them, of `width` bytes each, read
by `read`; `seen` holds the ids met so far. A repeated id is rejected before its value is read (D27). -/
def ioElements (width : Nat) (read : Instr) : Nat → List Nat → Client (List (Nat × Nat))
  | 0, _ => pure []
  | count + 1, seen => do
    let id ← readNat (.readU8 true)
    rejectIf (seen.contains id) (.duplicateIoId id width)
    let value ← readNat read
    let rest ← ioElements width read count (id :: seen)
    return (id, value) :: rest

/-- One group: its count, then its elements (43_frame_check.md R167). -/
def ioGroup (width : Nat) (read : Instr) : Client IoGroup := do
  let count ← readNat (.readU8 true)
  let elements ← ioElements width read count []
  return { width := width, elements := elements }

/-- The I/O element block (43_frame_check.md R167): the four groups in fixed order, then the check of the
declared total. -/
def ioBlock : Client IoBlock := do
  let eventId ← readNat (.readU8 true)
  let total ← readNat (.readU8 true)
  let g1 ← ioGroup 1 (.readU8 true)
  let g2 ← ioGroup 2 (.readU16 true)
  let g4 ← ioGroup 4 (.readU32 true)
  let g8 ← ioGroup 8 (.readU64 true)
  let sum := g1.elements.length + g2.elements.length + g4.elements.length + g8.elements.length
  rejectIf (sum != total) (.ioCountMismatch total sum)
  return { eventId := eventId, total := total, groups := [g1, g2, g4, g8] }

/-- One record (43_frame_check.md R166). -/
def record (tsValid : Value → Bool) : Client Sample := do
  let timestamp ← issueValue (.readU64 true)
  rejectIf (!tsValid timestamp) (.invalidTimestamp timestamp)
  let priority ← readNat (.readU8 true)
  rejectIf (priority > 2) (.invalidPriority priority)
  let longitude ← readInt (.readI32 true)
  let latitude ← readInt (.readI32 true)
  let altitude ← readInt (.readI16 true)
  let angle ← readNat (.readU16 true)
  let satellites ← readNat (.readU8 true)
  let speed ← readNat (.readU16 true)
  let io ← ioBlock
  return { timestamp := timestamp, priority := priority, longitude := longitude, latitude := latitude,
           altitude := altitude, angle := angle, satellites := satellites, speed := speed, io := io }

/-- The records, in sequence, fail-fast (43_frame_check.md R165). -/
def records (tsValid : Value → Bool) : Nat → Client (List Sample)
  | 0 => pure []
  | count + 1 => do
    let sample ← record tsValid
    let rest ← records tsValid count
    return sample :: rest

/-- The CRC check (43_frame_check.md R170): the checksummed range starts at offset 8 and ends where the
walk stands. It returns the stored CRC, the low 16 bits of the CRC field (42_crc.md R147). -/
def crcCheck : Client Crc := do
  let _ ← issue .crcInit
  let _ ← issue (.crcSpan 8)
  let field ← issueValue (.readU32 true)
  let _ ← issue .crcCheck
  return field.extractLsb' 0 16

/-- The length cross-check (43_frame_check.md R171), in mathematical integers (D32). -/
def lengthCheck (dataLength : Nat) : Client Unit := do
  let consumed ← readNat .position
  let remaining ← readNat .remaining
  rejectIf (consumed != 8 + dataLength + 4 || remaining != 0) .lengthMismatch

/-- The whole check of a loaded frame (43_frame_check.md R162 to R172): Framing, RecordCount1Parsed,
RecordsParsed, FooterValidated, Valid. -/
def frameCheck (tsValid : Value → Bool) : Client Packet := do
  let (preamble, dataLength, codec) ← framing
  let recordCount1 ← readNat (.readU8 true)
  let samples ← records tsValid recordCount1
  let recordCount2 ← readNat (.readU8 true)
  rejectIf (recordCount2 != recordCount1) .recordCountMismatch
  let storedCrc ← crcCheck
  lengthCheck dataLength
  return { preamble := preamble, dataLength := dataLength, codec := codec, recordCount1 := recordCount1,
           samples := samples, recordCount2 := recordCount2, storedCrc := storedCrc }

/-- The host's LOAD, taken by one step before every other action asked for (43_frame_check.md R160,
70_reset_and_hazards.md R222, R224). -/
def loadFrame (bytes : List Byte) : Client Unit := do
  let s ← get
  match step { s with pending := .load bytes :: s.pending } with
  | .fault f => throw (.stopped f)
  | .refused r => throw (.refused r)
  | .next t => set t

/-- One decode of a frame given as hex text, from any state of the block (43_frame_check.md R160 to R174):
its verdict, and the state it leaves the block in. A text of more than MAX_LEN bytes is refused. -/
def decodeFrame (tsValid : Value → Bool) (text : List Char) (s : State) : Except Stop Packet × State :=
  match hostInput s.params text with
  | .malformedHex => (.error (.rejected .malformedHexInput), s)
  | .tooLong n => (.error (.refused (.loadTooLong n)), s)
  | .load bytes => (do loadFrame bytes; frameCheck tsValid : Client Packet).run s

end Sys2Proof.Machine
end

