-- ==== Sys2Proof/Safety.lean ====
section
/-!
DEFINITION. What counts as a safe run: the invariant of the states the block can reach (10_state.md R21
to R29), runs, and the end of a successful one (70_reset_and_hazards.md R225).
-/
namespace Sys2Proof.Machine

/-- What holds in every state the block can reach. -/
structure Inv (s : State) : Prop where
  /-- The parameters are legal (00_scope.md R8). -/
  params : s.params.Legal
  /-- The buffer holds bytes at `0 .. LEN-1` and nowhere else (10_state.md R21). -/
  buffer : s.buf.map Prod.fst = List.range s.len
  /-- `LEN <= MAX_LEN` (10_state.md R22). -/
  len_le : s.len ≤ s.params.maxLen
  /-- `POS <= LEN` (10_state.md R23). -/
  pos_le : s.pos ≤ s.len
  /-- `SP <= SNAP_DEPTH` (10_state.md R25). -/
  sp_le : s.sp ≤ s.params.snapDepth
  /-- A saved position is at most LEN (41_cursor_control.md R125). -/
  snap_le : ∀ p ∈ s.snap, p ≤ s.len
  /-- CODE is one of the block's codes (10_state.md R28, 93_implementation_defined.md U5). -/
  code_le : s.code.toNat ≤ 6
  /-- The error-information registers are 0 but for TruncatedInput (10_state.md R29). -/
  no_info : s.code ≠ 1 → s.errOffset = 0 ∧ s.errNeeded = 0 ∧ s.errAvail = 0
  /-- ERR_CMD is written only when an error is raised, and by LOAD and reset (10_state.md R29). -/
  no_cmd : s.code = 0 → s.errCmd = 0

/-- The state of the registers after reset (10_state.md R34), and what the commands that need bytes do in it
(70_reset_and_hazards.md R220). RESULT, SNAP and BUF hold no value: RVALID is 0, no snapshot is live and no
byte is held. -/
structure AfterReset (t : State) : Prop where
  cursor : t.len = 0 ∧ t.pos = 0 ∧ t.sp = 0
  crc : t.crc = 0x0000
  status : t.status = 0x00000000
  error_info : t.errOffset = 0 ∧ t.errNeeded = 0 ∧ t.errAvail = 0 ∧ t.errCmd = 0
  no_result : t.rvalid = false
  no_byte : ∀ a, t.buf.read a = none
  /-- Every read raises `TruncatedInput(0, w, 0)`. -/
  reads_truncate : ∀ adv, ∀ p ∈ [(Instr.readU8 adv, 1), (.readU16 adv, 2), (.readU32 adv, 4),
      (.readU64 adv, 8), (.readI16 adv, 2), (.readI32 adv, 4)],
    exec p.1 t =
      .next { t with
        code := 1, errOffset := 0, errNeeded := BitVec.ofNat 16 p.2, errAvail := 0, errCmd := encode p.1 }
  /-- Every TAKE_SLICE of at least one byte raises `TruncatedInput(0, n, 0)`. -/
  slices_truncate : ∀ n : Imm, 0 < n.toNat →
    exec (.takeSlice n) t =
      .next { t with
        code := 1, errOffset := 0, errNeeded := n, errAvail := 0, errCmd := encode (.takeSlice n) }

/-- CODE and the error-information registers as after LOAD or reset, all else kept: what an error is
latched over (60_exceptions.md R203). -/
def State.withoutError (s : State) : State :=
  { s with code := 0, errOffset := 0, errNeeded := 0, errAvail := 0, errCmd := 0 }

/-- The latched error tells the truth: the command word it records, run on the state without the error,
raises exactly this error (60_exceptions.md R203, R204). -/
def ErrorRecordTrue (s : State) : Prop :=
  s.code ≠ 0 → runWord s.errCmd s.withoutError = .next s

/-- `k` steps from `s` end in `t`. -/
def StepsTo : Nat → State → State → Prop
  | 0, s, t => s = t
  | k + 1, s, t => ∃ u, step s = .next u ∧ StepsTo k u t

/-- The commands `is`, executed one after the other from `s`, end in `t`. -/
def ExecsTo : List Instr → State → State → Prop
  | [], s, t => s = t
  | i :: is, s, t => ∃ u, exec i s = .next u ∧ ExecsTo is u t

/-- The value-producing commands (10_state.md R26, 70_reset_and_hazards.md R231). -/
def producesValue : Instr → Bool
  | .readU8 _ | .readU16 _ | .readU32 _ | .readU64 _ | .readI16 _ | .readI32 _
  | .takeSlice _ | .remaining | .position | .crcRead => true
  | .snapshot | .restore | .crcInit | .crcByte _ | .crcSpan _ | .crcCheck => false

/-- `v` is the image of the value that a read of `w` bytes at POS returns (40_cursor_reads.md R101). -/
def ReadReturns (w : Nat) (sign : Signedness) (s : State) (v : Value) : Prop :=
  ∃ bytes : List Byte, bytes.length = w ∧ (∀ k, k < w → s.buf.read (s.pos + k) = bytes[k]?) ∧
    v = BitVec.ofInt 64 (readValue w sign (bigEndian bytes))

/-- `v` is what a value-producing command writes to RESULT (40_cursor_reads.md R101 to R107,
41_cursor_control.md R120, R122, R123; 42_crc.md R144). No other command returns a value. -/
def Returns : Instr → State → Value → Prop
  | .readU8 _, s, v => ReadReturns 1 .unsigned s v
  | .readU16 _, s, v => ReadReturns 2 .unsigned s v
  | .readU32 _, s, v => ReadReturns 4 .unsigned s v
  | .readU64 _, s, v => ReadReturns 8 .unsigned s v
  | .readI16 _, s, v => ReadReturns 2 .signed s v
  | .readI32 _, s, v => ReadReturns 4 .signed s v
  | .takeSlice n, s, v => v = BitVec.ofNat 32 s.pos ++ n.zeroExtend 32
  | .remaining, s, v => v = BitVec.ofNat 64 (s.len - s.pos)
  | .position, s, v => v = BitVec.ofNat 64 s.pos
  | .crcRead, s, v => v = s.crc.zeroExtend 64
  | .snapshot, _, _ | .restore, _, _ | .crcInit, _, _ | .crcByte _, _, _ | .crcSpan _, _, _
  | .crcCheck, _, _ => False

/-- The commands that write the CRC register (10_state.md R27). -/
def updatesCrc : Instr → Bool
  | .crcInit | .crcByte _ | .crcSpan _ => true
  | .readU8 _ | .readU16 _ | .readU32 _ | .readU64 _ | .readI16 _ | .readI32 _
  | .takeSlice _ | .remaining | .position | .snapshot | .restore | .crcRead | .crcCheck => false

/-- A run that may count as a successful decode ends with no error latched (70_reset_and_hazards.md R225). -/
def Successful (s : State) : Prop := s.code = 0

/-- Two states that only a register holding no value tells apart: they agree in everything but RESULT,
and in RESULT too where it holds a value (10_state.md R26). -/
def SameButDeadResult (s t : State) : Prop :=
  t = { s with result := t.result } ∧ (s.rvalid = true → t.result = s.result)

end Sys2Proof.Machine
end

