-- ==== Sys2Proof/Certificates/Slice0/Obligations.lean ====
section
/-!
DEFINITION. The statements for the provers. Each docstring names the rule of spec/ it formalises. The fields
`pending`, `response` and `params` of a state are the model's own form of what 70_reset_and_hazards.md R223 and
00_scope.md R8 say (notes/assumptions/1.md, 3.md and 4.md): a statement that speaks of them rests on that form. The
premise `s.len < 2 ^ s.params.addrW` says that LEN is an `ADDR_W`-bit register (10_state.md R22): every state that
satisfies `Inv` meets it, which OffsetRegistersFit says.
-/
open Sys2Proof Sys2Proof.Machine

/-! ### Encoding (30_encoding.md) -/

/-- No bit of an encoding is dropped (R70 to R74). -/
def Obligations.DecodeEncodeRoundTrip : Prop :=
  ∀ i : Instr, i.WellFormed → decode (encode i) = .ok i

/-- A word that decodes is the encoding of its command, which is well-formed (R70 to R74): one command has
one word. -/
def Obligations.DecodedWordIsItsEncoding : Prop :=
  ∀ (w : Word) (i : Instr), decode w = .ok i → i.WellFormed ∧ encode i = w

/-- The canonical words of the opcode map, and the words of its three commands with an operand (R73). -/
def Obligations.CanonicalWordsDecode : Prop :=
  decode 0x00000101 = .ok (.readU8 true) ∧ decode 0x00000102 = .ok (.readU16 true) ∧
  decode 0x00000103 = .ok (.readU32 true) ∧ decode 0x00000104 = .ok (.readU64 true) ∧
  decode 0x00000105 = .ok (.readI16 true) ∧ decode 0x00000106 = .ok (.readI32 true) ∧
  decode 0x00000008 = .ok (.takeSlice 0) ∧ decode 0x00000009 = .ok .remaining ∧
  decode 0x0000000A = .ok .position ∧ decode 0x0000000B = .ok .snapshot ∧
  decode 0x0000000C = .ok .restore ∧ decode 0x00000010 = .ok .crcInit ∧
  decode 0x00000011 = .ok (.crcByte 0) ∧ decode 0x00000012 = .ok (.crcSpan 0) ∧
  decode 0x00000013 = .ok .crcRead ∧ decode 0x00000014 = .ok .crcCheck ∧
  (∀ n : Imm, decode (n ++ (0x0008 : BitVec 16)) = .ok (.takeSlice n)) ∧
  (∀ b : Byte, decode (b.zeroExtend 16 ++ (0x0011 : BitVec 16)) = .ok (.crcByte (b.zeroExtend 16))) ∧
  (∀ a : Imm, decode (a ++ (0x0012 : BitVec 16)) = .ok (.crcSpan a))

/-- R74: which words are well-formed, by their bits; a well-formed word is executed by its rule, and any
other raises IllegalCommand and does nothing else, after the sticky test. -/
def Obligations.WellFormedWordsAndOnlyThoseRun : Prop :=
  ∀ w : Word,
    let op := (w.extractLsb' 0 8).toNat
    let adv := w.getLsbD 8
    let rsv := w.extractLsb' 9 7
    let imm := w.extractLsb' 16 16
    let wellFormed :=
      op ∈ [0x01, 0x02, 0x03, 0x04, 0x05, 0x06, 0x08, 0x09, 0x0A, 0x0B, 0x0C, 0x10, 0x11, 0x12, 0x13, 0x14] ∧
      rsv = 0 ∧ (adv = true → op ∈ [0x01, 0x02, 0x03, 0x04, 0x05, 0x06]) ∧
      (op ∉ [0x08, 0x11, 0x12] → imm = 0) ∧ (op = 0x11 → imm.toNat < 256)
    (wellFormed → ∃ i, decode w = .ok i ∧ ∀ s, runWord w s = exec i s) ∧
    (¬ wellFormed → ∀ s : State,
      (s.code = 0 →
        runWord w s =
          .next { s with code := 3, errOffset := 0, errNeeded := 0, errAvail := 0, errCmd := w }) ∧
      (s.code ≠ 0 → runWord w s = .next s))

/-- R75: each unassigned opcode raises IllegalCommand, whatever the other fields. -/
def Obligations.UnassignedOpcodesAreIllegal : Prop :=
  ∀ (w : Word) (s : State), s.code = 0 →
    ((w.extractLsb' 0 8).toNat ∈ [0x00, 0x07, 0x0D, 0x0E, 0x0F] ∨ 0x15 ≤ (w.extractLsb' 0 8).toNat) →
    runWord w s = .next { s with code := 3, errOffset := 0, errNeeded := 0, errAvail := 0, errCmd := w }

/-! ### The step (70_reset_and_hazards.md) -/

/-- A step runs the decoded command: with a word of command `i` next on the port, the step is `exec i` at
that state; around it, the action is taken and the response is STATUS, with RESULT where RVALID is 1
(R223; the fields `pending` and `response` are the model's, notes/assumptions/1.md and 3.md). -/
def Obligations.StepRunsDecodedCommand : Prop :=
  ∀ (s : State) (w : Word) (rest : List Action) (i : Instr),
    s.pending = .cmd w :: rest → decode w = .ok i →
    step s =
      match exec i s with
      | .next t =>
        .next { t with
          pending := rest
          response := some (.cmd t.status (if t.rvalid then some t.result else none)) }
      | .fault f => .fault f
      | .refused r => .refused r

/-- Between commands the block is idle and keeps all its state (60_exceptions.md R213). That the block
takes a step at all with nothing asked of it is the model's convention (notes/assumptions/2.md). -/
def Obligations.IdleStepKeepsState : Prop :=
  ∀ s : State, s.pending = [] → step s = .next s

/-- The registers after reset (10_state.md R34). RESULT, SNAP and BUF hold no value: RVALID is 0, no
snapshot is live and no byte is held. -/
def Obligations.ResetRegisters : Prop :=
  State.reset.len = 0 ∧ State.reset.pos = 0 ∧ State.reset.sp = 0 ∧ State.reset.crc = 0x0000 ∧
  State.reset.status = 0x00000000 ∧ State.reset.code = 0 ∧ State.reset.rvalid = false ∧
  State.reset.errOffset = 0 ∧ State.reset.errNeeded = 0 ∧ State.reset.errAvail = 0 ∧
  State.reset.errCmd = 0 ∧ (∀ a, State.reset.buf.read a = none)

/-- Reset (70_reset_and_hazards.md R220): power-up, and the RESET action from any state, put the registers
into the state of R34, in which every read and every TAKE_SLICE of at least one byte truncates. (The clauses
on `params`, `pending` and `response` are the model's: notes/assumptions/1.md, 3.md and 4.md.) -/
def Obligations.ResetActionAndAfter : Prop :=
  AfterReset State.reset ∧
  ∀ (s : State) (rest : List Action), s.pending = .reset :: rest →
    ∃ t, step s = .next t ∧ AfterReset t ∧ t.params = s.params ∧ t.pending = rest ∧ t.response = none

/-- LOAD (70_reset_and_hazards.md R222): at most MAX_LEN bytes start a fresh decode, more are refused.
(The clauses on `params`, `pending` and `response` are the model's: notes/assumptions/1.md, 3.md and 4.md.) -/
def Obligations.LoadAction : Prop :=
  ∀ (s : State) (bytes : List Byte) (rest : List Action),
    s.params.Legal → s.pending = .load bytes :: rest →
    (bytes.length ≤ s.params.maxLen →
      ∃ t, step s = .next t ∧
        (∀ k, t.buf.read k = bytes[k]?) ∧ t.len = bytes.length ∧ t.pos = 0 ∧ t.sp = 0 ∧
        t.crc = 0x0000 ∧ t.code = 0 ∧ t.rvalid = false ∧
        t.errOffset = 0 ∧ t.errNeeded = 0 ∧ t.errAvail = 0 ∧ t.errCmd = 0 ∧
        t.params = s.params ∧ t.pending = rest ∧ t.response = none) ∧
    (s.params.maxLen < bytes.length → step s = .refused (.loadTooLong bytes.length))

/-! ### Errors (60_exceptions.md) -/

/-- R204: with an error latched a command has no effect at all, its response repeats the latched STATUS,
and LOAD and reset, and nothing else, clear CODE. (That words come from `pending` and the response goes to
`response` is the model's form of R223: notes/assumptions/1.md and 3.md.) -/
def Obligations.ErrorIsSticky : Prop :=
  ∀ s : State, s.code ≠ 0 →
    (∀ i, exec i s = .next s) ∧
    (∀ w rest, s.pending = .cmd w :: rest →
      step s =
        .next { s with
          pending := rest
          response := some (.cmd s.status (if s.rvalid then some s.result else none)) }) ∧
    (∀ t, step s = .next t → t.code ≠ s.code →
      ∃ rest, s.pending = .reset :: rest ∨ ∃ bytes, s.pending = .load bytes :: rest) ∧
    (∀ t rest, (s.pending = .reset :: rest ∨ ∃ bytes, s.pending = .load bytes :: rest) →
      step s = .next t → t.code = 0)

/-- R203: what `raise` does, in one step, to a state with no error latched. Only CODE and the
error-information registers change. -/
def Obligations.ErrorIsPrecise : Prop :=
  ∀ (w : Word) (s t : State), s.code = 0 → runWord w s = .next t → t.code ≠ 0 →
    t = { s with
          code := t.code, errOffset := t.errOffset, errNeeded := t.errNeeded, errAvail := t.errAvail
          errCmd := w } ∧
    t.code.toNat ≤ 6 ∧
    (t.code = 1 →
      t.errOffset = BitVec.ofNat 16 s.pos ∧ t.errAvail.toNat = s.len - s.pos ∧
      t.errAvail.toNat < t.errNeeded.toNat) ∧
    (t.code ≠ 1 → t.errOffset = 0 ∧ t.errNeeded = 0 ∧ t.errAvail = 0)

/-- The error-information registers are written only when an error is raised (10_state.md R29). -/
def Obligations.ErrorRegistersKeptWithoutError : Prop :=
  ∀ (i : Instr) (s t : State), exec i s = .next t → t.code = s.code →
    t.errOffset = s.errOffset ∧ t.errNeeded = s.errNeeded ∧ t.errAvail = s.errAvail ∧ t.errCmd = s.errCmd

/-- A latched error stays true: the recorded command word, run on the state without the error, raises
exactly the error latched (R203 to R205, R208). -/
def Obligations.ErrorRecordStaysTrue : Prop :=
  ∀ s t : State, Inv s → ErrorRecordTrue s → step s = .next t → ErrorRecordTrue t

/-! ### Cursor reads (40_cursor_reads.md) -/

/-- READ_U8 (R101, R102): the byte at POS, zero-extended; POS moves by 1 with ADV = 1. -/
def Obligations.ReadU8Result : Prop :=
  ∀ (s : State) (adv : Bool) (b0 : Byte),
    s.code = 0 → s.len < 2 ^ s.params.addrW → s.pos + 1 ≤ s.len → s.buf.read s.pos = some b0 →
    exec (.readU8 adv) s =
      .next { s with
        result := b0.zeroExtend 64, rvalid := true, pos := if adv then s.pos + 1 else s.pos }

/-- READ_U16 (R101, R103): two bytes, the first most significant, zero-extended. -/
def Obligations.ReadU16Result : Prop :=
  ∀ (s : State) (adv : Bool) (b0 b1 : Byte),
    s.code = 0 → s.len < 2 ^ s.params.addrW → s.pos + 2 ≤ s.len →
    s.buf.read s.pos = some b0 → s.buf.read (s.pos + 1) = some b1 →
    exec (.readU16 adv) s =
      .next { s with
        result := (b0 ++ b1).zeroExtend 64, rvalid := true, pos := if adv then s.pos + 2 else s.pos }

/-- READ_U32 (R101, R104): four bytes, zero-extended. -/
def Obligations.ReadU32Result : Prop :=
  ∀ (s : State) (adv : Bool) (b0 b1 b2 b3 : Byte),
    s.code = 0 → s.len < 2 ^ s.params.addrW → s.pos + 4 ≤ s.len →
    s.buf.read s.pos = some b0 → s.buf.read (s.pos + 1) = some b1 →
    s.buf.read (s.pos + 2) = some b2 → s.buf.read (s.pos + 3) = some b3 →
    exec (.readU32 adv) s =
      .next { s with
        result := (b0 ++ b1 ++ b2 ++ b3).zeroExtend 64, rvalid := true
        pos := if adv then s.pos + 4 else s.pos }

/-- READ_U64 (R101, R105): eight bytes, RESULT exactly their value. -/
def Obligations.ReadU64Result : Prop :=
  ∀ (s : State) (adv : Bool) (b0 b1 b2 b3 b4 b5 b6 b7 : Byte),
    s.code = 0 → s.len < 2 ^ s.params.addrW → s.pos + 8 ≤ s.len →
    s.buf.read s.pos = some b0 → s.buf.read (s.pos + 1) = some b1 →
    s.buf.read (s.pos + 2) = some b2 → s.buf.read (s.pos + 3) = some b3 →
    s.buf.read (s.pos + 4) = some b4 → s.buf.read (s.pos + 5) = some b5 →
    s.buf.read (s.pos + 6) = some b6 → s.buf.read (s.pos + 7) = some b7 →
    exec (.readU64 adv) s =
      .next { s with
        result := b0 ++ b1 ++ b2 ++ b3 ++ b4 ++ b5 ++ b6 ++ b7, rvalid := true
        pos := if adv then s.pos + 8 else s.pos }

/-- READ_I16 (R101, R106): two bytes, sign-extended. -/
def Obligations.ReadI16Result : Prop :=
  ∀ (s : State) (adv : Bool) (b0 b1 : Byte),
    s.code = 0 → s.len < 2 ^ s.params.addrW → s.pos + 2 ≤ s.len →
    s.buf.read s.pos = some b0 → s.buf.read (s.pos + 1) = some b1 →
    exec (.readI16 adv) s =
      .next { s with
        result := (b0 ++ b1).signExtend 64, rvalid := true, pos := if adv then s.pos + 2 else s.pos }

/-- READ_I32 (R101, R107): four bytes, sign-extended. -/
def Obligations.ReadI32Result : Prop :=
  ∀ (s : State) (adv : Bool) (b0 b1 b2 b3 : Byte),
    s.code = 0 → s.len < 2 ^ s.params.addrW → s.pos + 4 ≤ s.len →
    s.buf.read s.pos = some b0 → s.buf.read (s.pos + 1) = some b1 →
    s.buf.read (s.pos + 2) = some b2 → s.buf.read (s.pos + 3) = some b3 →
    exec (.readI32 adv) s =
      .next { s with
        result := (b0 ++ b1 ++ b2 ++ b3).signExtend 64, rvalid := true
        pos := if adv then s.pos + 4 else s.pos }

/-- R100: a read of more bytes than remain, consuming or peeking, raises TruncatedInput and has no other
effect. -/
def Obligations.ReadTruncates : Prop :=
  ∀ (s : State) (adv : Bool), s.code = 0 → s.pos ≤ s.len →
    ∀ p ∈ [(Instr.readU8 adv, 1), (.readU16 adv, 2), (.readU32 adv, 4), (.readU64 adv, 8),
        (.readI16 adv, 2), (.readI32 adv, 4)],
      s.len - s.pos < p.2 →
      exec p.1 s =
        .next { s with
          code := 1, errOffset := BitVec.ofNat 16 s.pos, errNeeded := BitVec.ofNat 16 p.2
          errAvail := BitVec.ofNat 16 (s.len - s.pos)
          errCmd := encode p.1 }

/-- Repeating a peek changes nothing more, so it returns the same value (20_memory.md R56). -/
def Obligations.PeekTwiceIsPeekOnce : Prop :=
  ∀ (s t : State), ∀ i ∈ [Instr.readU8 false, .readU16 false, .readU32 false, .readU64 false,
      .readI16 false, .readI32 false],
    exec i s = .next t → exec i t = .next t

/-- Mixed-width accesses see the same bytes (20_memory.md R52): a 4-byte peek that succeeds is the two
2-byte reads from the same position, the first the more significant. -/
def Obligations.MixedWidthReadsAgree : Prop :=
  ∀ s t : State, s.code = 0 → s.len < 2 ^ s.params.addrW →
    exec (.readU32 false) s = .next t → t.code = 0 →
    ∃ t1 t2, exec (.readU16 true) s = .next t1 ∧ exec (.readU16 true) t1 = .next t2 ∧
      t1.code = 0 ∧ t2.code = 0 ∧
      t.result = (t1.result.extractLsb' 0 16 ++ t2.result.extractLsb' 0 16).zeroExtend 64

/-! ### Slice, position, snapshots (41_cursor_control.md) -/

/-- TAKE_SLICE n (R120) with n bytes left. -/
def Obligations.TakeSliceResult : Prop :=
  ∀ (s : State) (n : Imm), s.code = 0 → s.len < 2 ^ s.params.addrW → s.pos + n.toNat ≤ s.len →
    exec (.takeSlice n) s =
      .next { s with
        result := BitVec.ofNat 32 s.pos ++ n.zeroExtend 32, rvalid := true, pos := s.pos + n.toNat }

/-- TAKE_SLICE n (R120) with fewer bytes left. -/
def Obligations.TakeSliceTruncates : Prop :=
  ∀ (s : State) (n : Imm), s.code = 0 → s.pos ≤ s.len →
    s.len < s.pos + n.toNat →
    exec (.takeSlice n) s =
      .next { s with
        code := 1, errOffset := BitVec.ofNat 16 s.pos, errNeeded := n
        errAvail := BitVec.ofNat 16 (s.len - s.pos)
        errCmd := encode (.takeSlice n) }

/-- REMAINING (R122). -/
def Obligations.RemainingResult : Prop :=
  ∀ s : State, s.code = 0 → s.pos ≤ s.len →
    exec .remaining s = .next { s with result := BitVec.ofNat 64 (s.len - s.pos), rvalid := true }

/-- POSITION (R123). -/
def Obligations.PositionResult : Prop :=
  ∀ s : State, s.code = 0 →
    exec .position s = .next { s with result := BitVec.ofNat 64 s.pos, rvalid := true }

/-- SNAPSHOT (R124): on a stack that is not full it pushes POS; on a full one it raises
SnapshotOverflow. -/
def Obligations.SnapshotResult : Prop :=
  ∀ s : State, s.code = 0 →
    (s.sp < s.params.snapDepth → exec .snapshot s = .next { s with snap := s.snap ++ [s.pos] }) ∧
    (s.sp = s.params.snapDepth →
      exec .snapshot s =
        .next { s with
          code := 4, errOffset := 0, errNeeded := 0, errAvail := 0, errCmd := 0x0000000B })

/-- RESTORE (R125): it pops the most recent snapshot into POS; on an empty stack it raises
SnapshotUnderflow. -/
def Obligations.RestoreResult : Prop :=
  ∀ s : State, s.code = 0 →
    (∀ (below : List Nat) (top : Nat), s.snap = below ++ [top] →
      exec .restore s = .next { s with snap := below, pos := top }) ∧
    (s.snap = [] →
      exec .restore s =
        .next { s with
          code := 5, errOffset := 0, errNeeded := 0, errAvail := 0, errCmd := 0x0000000C })

/-- A snapshot brings POS back after any lookahead that leaves the stack and the error flag as they were
(R125, R126): RESTORE then gives the POS and the stack at the SNAPSHOT. -/
def Obligations.RestoreUndoesLookahead : Prop :=
  ∀ (s t u v : State) (is : List Instr), s.code = 0 → s.sp < s.params.snapDepth →
    exec .snapshot s = .next t → (∀ i ∈ is, i ≠ .snapshot ∧ i ≠ .restore) → ExecsTo is t u →
    u.code = 0 → exec .restore u = .next v →
    v.pos = s.pos ∧ v.snap = s.snap ∧ v.result = u.result ∧ v.rvalid = u.rvalid ∧ v.crc = u.crc ∧ v.code = 0

/-- POS changes only in four ways, and stays within LEN (10_state.md R23). -/
def Obligations.PosMovesInFourWays : Prop :=
  ∀ s t : State, Inv s → step s = .next t →
    t.pos ≤ t.len ∧
    (t.pos = s.pos ∨
     (∃ i n rest, (i, n) ∈ [(Instr.readU8 true, 1), (.readU16 true, 2), (.readU32 true, 4),
          (.readU64 true, 8), (.readI16 true, 2), (.readI32 true, 4)] ∧
        s.pending = .cmd (encode i) :: rest ∧ t.pos = s.pos + n) ∨
     (∃ n rest, s.pending = .cmd (encode (.takeSlice n)) :: rest ∧
        t.pos = s.pos + n.toNat) ∨
     (∃ below rest, s.pending = .cmd (encode .restore) :: rest ∧ s.snap = below ++ [t.pos]) ∨
     (∃ rest, (s.pending = .reset :: rest ∨ ∃ bytes, s.pending = .load bytes :: rest) ∧ t.pos = 0))

/-! ### The CRC unit (42_crc.md) -/

/-- CRC_INIT (R141). -/
def Obligations.CrcInitResult : Prop :=
  ∀ s : State, s.code = 0 → exec .crcInit s = .next { s with crc := 0x0000 }

/-- CRC_BYTE b (R143), for every byte b. -/
def Obligations.CrcByteResult : Prop :=
  ∀ (s : State) (b : Byte), s.code = 0 →
    exec (.crcByte (b.zeroExtend 16)) s = .next { s with crc := crc16Step s.crc b }

/-- CRC_BYTE with a non-zero upper byte of its immediate raises IllegalCommand (R143; 30_encoding.md
R74 (d)). That the ill-formed immediate reaches the command at all is the model's: notes/assumptions/11.md. -/
def Obligations.CrcByteUpperByteIllegal : Prop :=
  ∀ (s : State) (imm : Imm), s.code = 0 → 256 ≤ imm.toNat →
    exec (.crcByte imm) s =
      .next { s with
        code := 3, errOffset := 0, errNeeded := 0, errAvail := 0, errCmd := imm ++ (0x0011 : BitVec 16) }

/-- CRC_SPAN A (R142) folds `BUF[A .. POS-1]` in, in ascending order, and changes nothing else. -/
def Obligations.CrcSpanResult : Prop :=
  ∀ (s : State) (start : Imm) (bytes : List Byte), s.code = 0 →
    start.toNat + bytes.length = s.pos →
    (∀ k, k < bytes.length → s.buf.read (start.toNat + k) = bytes[k]?) →
    exec (.crcSpan start) s = .next { s with crc := bytes.foldl crc16Step s.crc }

/-- CRC_SPAN A with `A > POS` raises IllegalCommand (R142). -/
def Obligations.CrcSpanBeyondPosIllegal : Prop :=
  ∀ (s : State) (start : Imm), s.code = 0 → s.pos < start.toNat →
    exec (.crcSpan start) s =
      .next { s with
        code := 3, errOffset := 0, errNeeded := 0, errAvail := 0, errCmd := start ++ (0x0012 : BitVec 16) }

/-- CRC_READ (R144). -/
def Obligations.CrcReadResult : Prop :=
  ∀ s : State, s.code = 0 →
    exec .crcRead s = .next { s with result := s.crc.zeroExtend 64, rvalid := true }

/-- CRC_CHECK (R145, R147): NoResult, then CrcMismatch on the low 16 bits of RESULT, else nothing. -/
def Obligations.CrcCheckResult : Prop :=
  ∀ s : State, s.code = 0 →
    exec .crcCheck s =
      if s.rvalid = false then
        .next { s with code := 6, errOffset := 0, errNeeded := 0, errAvail := 0, errCmd := 0x00000014 }
      else if s.result.extractLsb' 0 16 = s.crc then .next s
      else
        .next { s with code := 2, errOffset := 0, errNeeded := 0, errAvail := 0, errCmd := 0x00000014 }

/-- CRC_SPAN equals the CRC_BYTE of each byte it covers (R148 (a)). -/
def Obligations.CrcSpanIsCrcBytes : Prop :=
  ∀ (s t : State) (start : Imm) (bytes : List Byte), s.code = 0 →
    start.toNat + bytes.length = s.pos →
    (∀ k, k < bytes.length → s.buf.read (start.toNat + k) = bytes[k]?) →
    exec (.crcSpan start) s = .next t →
    ExecsTo (bytes.map fun b => .crcByte (b.zeroExtend 16)) s t

/-- The table form of the CRC (R146): the table is `T[i] = crc16_step(0, i)`, and both forms agree for
every `(c, b)`. -/
def Obligations.CrcTableForm : Prop :=
  crcTable.length = 256 ∧
  (∀ i : Byte, crcTable[i.toNat]? = some (crc16Step 0x0000 i)) ∧
  ∀ (c : Crc) (b : Byte), crc16Step c b = crc16StepTable c b

/-- The laws of the CRC (R148 (a) to (d)). -/
def Obligations.CrcLaws : Prop :=
  (∀ (c : Crc) (xs ys : List Byte), crc16 c (xs ++ ys) = crc16 (crc16 c xs) ys) ∧
  (∀ n : Nat, crc16 0x0000 (List.replicate n 0x00) = 0x0000) ∧
  (∀ (xs ys : List Byte) (b : Byte) (k : Nat), k < 8 →
    crc16 0x0000 (xs ++ (b ^^^ BitVec.twoPow 8 k) :: ys) ≠ crc16 0x0000 (xs ++ b :: ys)) ∧
  (∀ xs : List Byte,
    let c := crc16 0x0000 xs
    crc16 0x0000 (xs ++ [c.extractLsb' 0 8, c.extractLsb' 8 8]) = 0x0000)

/-- The check value of R140's CRC over the ASCII string "123456789" (R149). -/
def Obligations.CrcCheckValue : Prop :=
  crc16 0x0000 [0x31, 0x32, 0x33, 0x34, 0x35, 0x36, 0x37, 0x38, 0x39] = 0xBB3D

/-! ### Registers (10_state.md) -/

/-- The fields of STATUS (R28). -/
def Obligations.StatusFields : Prop :=
  ∀ s : State, s.status.extractLsb' 0 8 = s.code ∧ s.status.getLsbD 8 = s.rvalid ∧
    s.status.extractLsb' 9 23 = 0

/-- The host's register reads that have a value (R33; `pending` and `response` are the model's,
notes/assumptions/1.md and 3.md). -/
def Obligations.RegisterReadsAnswer : Prop :=
  ∀ (s : State) (n : BitVec 8) (rest : List Action) (word : Word), s.pending = .regRead n :: rest →
    (n, word) ∈ [(0x00, s.status), (0x01, BitVec.ofNat 32 s.pos), (0x02, BitVec.ofNat 32 s.len),
      (0x05, s.crc.zeroExtend 32), (0x06, (BitVec.ofNat 16 s.sp).zeroExtend 32),
      (0x07, s.errOffset.zeroExtend 32), (0x08, s.errNeeded.zeroExtend 32),
      (0x09, s.errAvail.zeroExtend 32), (0x0A, s.errCmd)] ∨
    (s.rvalid = true ∧
      (n, word) ∈ [(0x03, s.result.extractLsb' 0 32), (0x04, s.result.extractLsb' 32 32)]) ∨
    (∃ i p, i < s.params.snapDepth ∧ n.toNat = 0x10 + i ∧ s.snap[i]? = some p ∧ word = BitVec.ofNat 32 p) →
    step s = .next { s with pending := rest, response := some (.reg word) }

/-- The host's register reads that have no value are refused (R33; that a refusal ends the run is the model's,
notes/assumptions/14.md). -/
def Obligations.RegisterReadsRefuse : Prop :=
  ∀ (s : State) (n : BitVec 8) (rest : List Action), s.pending = .regRead n :: rest →
    (s.rvalid = false ∧ n ∈ [0x03, 0x04]) ∨ n.toNat ∈ [0x0B, 0x0C, 0x0D, 0x0E, 0x0F] ∨
    0x10 + s.params.snapDepth ≤ n.toNat ∨ 0x10 + s.sp ≤ n.toNat →
    step s = .refused (.registerHasNoValue n)

/-- Who writes RESULT and RVALID, and what, and who may read RESULT (10_state.md R26; the refused host read is
R33's, and that a refusal ends the run is the model's, notes/assumptions/14.md). -/
def Obligations.ResultWriters : Prop :=
  (∀ (i : Instr) (s t : State), producesValue i = true → s.code = 0 → exec i s = .next t → t.code = 0 →
    t.rvalid = true ∧ Returns i s t.result) ∧
  (∀ (i : Instr) (s t : State), exec i s = .next t → producesValue i = false ∨ t.code ≠ 0 →
    t.result = s.result ∧ t.rvalid = s.rvalid) ∧
  (∀ (s t : State) (rest : List Action),
    (s.pending = .reset :: rest ∨ ∃ bytes, s.pending = .load bytes :: rest) → step s = .next t →
    t.rvalid = false) ∧
  (∀ s : State, s.code = 0 → s.rvalid = false → ∃ t, exec .crcCheck s = .next t ∧ t.code = 6) ∧
  (∀ (s : State) (n : BitVec 8) (rest : List Action), s.rvalid = false → n ∈ [0x03, 0x04] →
    s.pending = .regRead n :: rest → step s = .refused (.registerHasNoValue n))

/-- Who writes the CRC register (R27). -/
def Obligations.CrcRegisterWriters : Prop :=
  (∀ (i : Instr) (s t : State), updatesCrc i = false → exec i s = .next t → t.crc = s.crc) ∧
  (∀ (s t : State) (rest : List Action),
    (s.pending = .reset :: rest ∨ ∃ bytes, s.pending = .load bytes :: rest) → step s = .next t →
    t.crc = 0x0000)

/-- Who changes the snapshot stack: of the commands, only SNAPSHOT and RESTORE (R25, R32), and LOAD and reset,
which empty it (70_reset_and_hazards.md R220, R222). -/
def Obligations.SnapshotStackWriters : Prop :=
  (∀ (i : Instr) (s t : State), i ≠ .snapshot → i ≠ .restore → exec i s = .next t → t.snap = s.snap) ∧
  (∀ (s t : State) (rest : List Action),
    (s.pending = .reset :: rest ∨ ∃ bytes, s.pending = .load bytes :: rest) → step s = .next t →
    t.snap = [])

/-- No command writes the buffer or LEN (R21, R22; 20_memory.md R50), nor the model's own fields. -/
def Obligations.CommandsNeverWriteBuffer : Prop :=
  ∀ (i : Instr) (s t : State), exec i s = .next t →
    (∀ a, t.buf.read a = s.buf.read a) ∧ t.len = s.len ∧ t.params = s.params ∧ t.pending = s.pending ∧
      t.response = s.response

/-! ### The invariant of the states the block can reach -/

/-- The state after reset satisfies the invariant, whatever the block's legal parameters are, and its error
record is (trivially) true (10_state.md R34). -/
def Obligations.ResetSatisfiesInv : Prop :=
  Inv State.reset ∧ ErrorRecordTrue State.reset ∧ ∀ p : Params, p.Legal → Inv (State.powerUp p)

/-- In every state that satisfies the invariant, the registers that hold offsets hold numbers of `ADDR_W` bits
(10_state.md R22, R23, R25). -/
def Obligations.OffsetRegistersFit : Prop :=
  ∀ s : State, Inv s →
    s.len < 2 ^ s.params.addrW ∧ s.pos < 2 ^ s.params.addrW ∧ ∀ p ∈ s.snap, p < 2 ^ s.params.addrW

/-- Every step keeps the invariant (10_state.md R21 to R29), and the parameters. -/
def Obligations.StepKeepsInv : Prop :=
  ∀ s t : State, Inv s → step s = .next t → Inv t ∧ t.params = s.params

/-- In a state the block can reach, every command word on the port is taken in one step: no command faults,
waits or is refused (60_exceptions.md R213; 93_implementation_defined.md U3). -/
def Obligations.EveryCommandCompletes : Prop :=
  ∀ (s : State) (w : Word) (rest : List Action), Inv s → s.pending = .cmd w :: rest →
    ∃ t, step s = .next t ∧ t.pending = rest ∧ t.len = s.len

/-- The contents RESULT keeps while RVALID is 0 are never observed (R26): two states that differ in nothing
else answer alike for ever. -/
def Obligations.DeadResultInvisible : Prop :=
  ∀ s t : State, SameButDeadResult s t →
    (∀ s', step s = .next s' →
      ∃ t', step t = .next t' ∧ SameButDeadResult s' t' ∧ t'.response = s'.response) ∧
    (∀ f, step s = .fault f → step t = .fault f) ∧
    (∀ r, step s = .refused r → step t = .refused r)

/-- LOAD starts a fresh decode (70_reset_and_hazards.md R222): what two blocks do after the same LOAD, given
the same actions, does not depend on what they held before it. -/
def Obligations.LoadForgetsThePast : Prop :=
  ∀ (s t : State) (bytes : List Byte) (rest : List Action),
    s.params = t.params → s.pending = .load bytes :: rest → t.pending = .load bytes :: rest →
    ∀ (k : Nat) (s' : State), StepsTo (k + 1) s s' →
      ∃ t', StepsTo (k + 1) t t' ∧ SameButDeadResult s' t' ∧ t'.response = s'.response

/-! ### Several blocks, the host and the client -/

/-- Blocks share no state (60_exceptions.md R214): a step of one leaves the others as they are, and steps of
two different blocks may be taken in either order (the product is the model's, notes/assumptions/20.md). -/
def Obligations.BlocksAreIndependent : Prop :=
  ∀ (j k : Nat) (bs b1 b2 : Blocks), j ≠ k → stepBlock j bs = .next b1 → stepBlock k b1 = .next b2 →
    b1[k]? = bs[k]? ∧ ∃ b1', stepBlock k bs = .next b1' ∧ stepBlock j b1' = .next b2

/-- The host's hex conversion (43_frame_check.md R160): which characters are hex digits and their values; it
fails exactly on an odd length or a character that is no hex digit, and byte k is characters 2k and 2k+1, high
nibble first. -/
def Obligations.HexConversion : Prop :=
  (∀ (c : Char) (n : Nat), hexDigit c = some n ↔
    (c, n) ∈ [('0', 0), ('1', 1), ('2', 2), ('3', 3), ('4', 4), ('5', 5), ('6', 6), ('7', 7), ('8', 8), ('9', 9),
      ('a', 10), ('b', 11), ('c', 12), ('d', 13), ('e', 14), ('f', 15),
      ('A', 10), ('B', 11), ('C', 12), ('D', 13), ('E', 14), ('F', 15)]) ∧
  (∀ text : List Char,
    hexBytes text = none ↔ text.length % 2 = 1 ∨ ∃ c ∈ text, hexDigit c = none) ∧
  ∀ (text : List Char) (bytes : List Byte), hexBytes text = some bytes →
    text.length = 2 * bytes.length ∧
    ∀ k b, bytes[k]? = some b →
      ∃ hi lo h l, text[2 * k]? = some hi ∧ text[2 * k + 1]? = some lo ∧
        hexDigit hi = some h ∧ hexDigit lo = some l ∧ b.toNat = 16 * h + l

/-- Every word the assembler produces is well-formed (30_encoding.md R77). -/
def Obligations.AssembledWordsDecode : Prop :=
  ∀ (line : String) (ws : List Word), assembleLine line = some ws → ∀ w ∈ ws, ∃ i, decode w = .ok i

/-- What a Valid verdict of the Codec 8 client means (43_frame_check.md R161, R163, R164, R169 to R172): the envelope's
fields in the bytes of the input. -/
def Obligations.ValidFramesSatisfyTheEnvelope : Prop :=
  ∀ (tsValid : Value → Bool) (text : List Char) (s t : State) (p : Packet),
    s.params.Legal → decodeFrame tsValid text s = (.ok p, t) →
    ∃ bytes, hexBytes text = some bytes ∧
      p.preamble = 0 ∧ bigEndian (bytes.take 4) = 0 ∧
      p.codec = 0x08 ∧ bytes[8]? = some 0x08 ∧
      p.dataLength = bigEndian ((bytes.drop 4).take 4) ∧
      bytes[9]?.map BitVec.toNat = some p.recordCount1 ∧
      bytes[8 + p.dataLength - 1]?.map BitVec.toNat = some p.recordCount2 ∧
      p.recordCount1 = p.recordCount2 ∧ p.recordCount2 = p.samples.length ∧
      bytes.length = 8 + p.dataLength + 4 ∧
      crc16 0x0000 ((bytes.drop 8).take p.dataLength) = p.storedCrc ∧
      p.storedCrc.toNat = bigEndian ((bytes.drop (8 + p.dataLength + 2)).take 2) ∧
      (∀ r ∈ p.samples, tsValid r.timestamp = true ∧ r.priority ≤ 2) ∧ Successful t

/-- The Codec 8 client never causes an error of the command port (43_frame_check.md R173): a decode that is
not Valid is rejected with a reason of the spec, or its text was of more than MAX_LEN bytes, which the host does not
load (R160; that a refusal is an end of the client is the model's, notes/assumptions/14.md and 16.md). -/
def Obligations.ClientNeverFaults : Prop :=
  ∀ (tsValid : Value → Bool) (text : List Char) (s t : State) (e : Stop),
    s.params.Legal → decodeFrame tsValid text s = (.error e, t) →
    (∃ reason, e = .rejected reason) ∨
    ∃ bytes, hexBytes text = some bytes ∧ s.params.maxLen < bytes.length ∧
      e = .refused (.loadTooLong bytes.length)
end

