-- ==== Sys2Proof/Laws/Crc16.lean ====
section
/-!
SUPPORT. The CRC function: its equations and its linearity over exclusive-or.
-/
namespace Sys2Proof.Machine

@[simp] theorem crc16_nil (c : Crc) : crc16 c [] = c := rfl

@[simp] theorem crc16_cons (c : Crc) (b : Byte) (bs : List Byte) :
    crc16 c (b :: bs) = crc16 (crc16Step c b) bs := rfl

/-- A round is linear over exclusive-or (42_crc.md R148 (c)). -/
theorem crcRound_xor (a b : Crc) : crcRound (a ^^^ b) = crcRound a ^^^ crcRound b := by
  have h := BitVec.getLsbD_xor (x := a) (y := b) (i := 0)
  rcases ha : a.getLsbD 0 <;> rcases hb : b.getLsbD 0 <;>
    · simp only [crcRound, h, ha, hb, BitVec.ushiftRight_xor_distrib, Bool.xor_true, Bool.xor_false, Bool.not_true,
        Bool.not_false, if_true, if_false, Bool.false_eq_true]
      try ac_rfl
      try (rw [show ∀ x y z : Crc, x ^^^ z ^^^ (y ^^^ z) = x ^^^ y ^^^ (z ^^^ z) by intros; ac_rfl,
        BitVec.xor_self, BitVec.xor_zero])

theorem crcRounds_xor (n : Nat) (a b : Crc) :
    crcRounds n (a ^^^ b) = crcRounds n a ^^^ crcRounds n b := by
  induction n generalizing a b with
  | zero => rfl
  | succ n ih => simp only [crcRounds, crcRound_xor, ih]

end Sys2Proof.Machine
end

