-- ==== Sys2Proof/Laws/Decode.lean ====
section
/-!
SUPPORT. The fields of an encoded word (30_encoding.md R70).
-/
namespace Sys2Proof

/-- The bits of an encoded word, field by field (30_encoding.md R70). -/
theorem packWord_getLsbD (imm : Imm) (adv : Bool) (op : Byte) (i : Nat) :
    (packWord imm adv op).getLsbD i =
      if i < 8 then op.getLsbD i
      else if i = 8 then adv
      else if i < 16 then false
      else imm.getLsbD (i - 16) := by
  have h : (packWord imm adv op).getLsbD i =
      (imm ++ (0 : BitVec 7) ++ BitVec.ofBool adv ++ op).getLsbD i := rfl
  rw [h, BitVec.getLsbD_append, BitVec.getLsbD_append, BitVec.getLsbD_append]
  by_cases h8 : i < 8
  · simp [h8]
  · by_cases h9 : i = 8
    · subst h9; simp
    · by_cases h16 : i < 16
      · simp [h8, h9, h16, show ¬ i - 8 < 1 by omega, show i - 8 - 1 < 7 by omega]
      · simp [h8, h9, h16, show ¬ i - 8 < 1 by omega, show ¬ i - 8 - 1 < 7 by omega,
          show i - 8 - 1 - 7 = i - 16 by omega]

@[simp] theorem wordOp_packWord (imm : Imm) (adv : Bool) (op : Byte) :
    wordOp (packWord imm adv op) = op := by
  refine BitVec.eq_of_getLsbD_eq fun i hi => ?_
  rw [wordOp, BitVec.getLsbD_extractLsb', packWord_getLsbD]
  simp [hi]

@[simp] theorem wordAdv_packWord (imm : Imm) (adv : Bool) (op : Byte) :
    wordAdv (packWord imm adv op) = adv := by
  rw [wordAdv, packWord_getLsbD]
  simp

@[simp] theorem wordRsv_packWord (imm : Imm) (adv : Bool) (op : Byte) :
    wordRsv (packWord imm adv op) = 0 := by
  refine BitVec.eq_of_getLsbD_eq fun i hi => ?_
  rw [wordRsv, BitVec.getLsbD_extractLsb', packWord_getLsbD, if_neg (by omega), if_neg (by omega),
    if_pos (by omega)]
  simp

@[simp] theorem wordImm_packWord (imm : Imm) (adv : Bool) (op : Byte) :
    wordImm (packWord imm adv op) = imm := by
  refine BitVec.eq_of_getLsbD_eq fun i hi => ?_
  rw [wordImm, BitVec.getLsbD_extractLsb', packWord_getLsbD, if_neg (by omega), if_neg (by omega),
    if_neg (by omega), show 16 + i - 16 = i by omega]
  simp [hi]

/-- A word whose RSV is 0 is its other three fields (30_encoding.md R70). -/
theorem packWord_fields (w : Word) (h : wordRsv w = 0) :
    packWord (wordImm w) (wordAdv w) (wordOp w) = w := by
  refine BitVec.eq_of_getLsbD_eq fun i hi => ?_
  rw [packWord_getLsbD]
  split
  case isTrue h8 => rw [wordOp, BitVec.getLsbD_extractLsb']; simp [h8]
  case isFalse h8 =>
    split
    case isTrue h9 => rw [wordAdv, h9]
    case isFalse h9 =>
      split
      case isTrue h16 =>
        have hbit := congrArg (fun x : BitVec 7 => x.getLsbD (i - 9)) h
        simp only [wordRsv, BitVec.getLsbD_extractLsb', show 9 + (i - 9) = i by omega,
          show i - 9 < 7 by omega] at hbit
        simpa using hbit.symm
      case isFalse h16 =>
        rw [wordImm, BitVec.getLsbD_extractLsb', show 16 + (i - 16) = i by omega]
        simp [show i - 16 < 16 by omega]

/-- The number of an assigned opcode is the map's (30_encoding.md R73). -/
@[simp] theorem opcodeOf_opcodeNumber (op : Opcode) : opcodeOf (opcodeNumber op) = some op := by
  cases op <;> rfl

/-- Only the number of an assigned opcode is mapped to it (30_encoding.md R73, R75). -/
theorem opcodeNumber_of_opcodeOf (b : Byte) (op : Opcode) (h : opcodeOf b = some op) :
    opcodeNumber op = b := by
  have hmem : (b, op) ∈ opcodeMap := by
    obtain ⟨l₁, l₂, hl, -⟩ := List.lookup_eq_some_iff.mp h
    rw [hl]
    exact List.mem_append_right _ (List.mem_cons_self ..)
  have hall : ∀ p ∈ opcodeMap, opcodeNumber p.2 = p.1 := by decide
  exact hall _ hmem

/-- A command has the opcode and operands it was made of. -/
@[simp] theorem instrOf_instr (i : Instr) : instrOf (instrOpcode i) (instrAdv i) (instrImm i) = i := by
  cases i <;> rfl

end Sys2Proof
end

