-- ==== Sys2Proof/Laws/Memory.lean ====
section
/-!
SUPPORT. The buffer: reading after LOAD, reading a range, and the canonical form. LOAD is the only
operation that writes the buffer (20_memory.md R50), so `Memory.ofBytes_wf` and `Memory.nil_wf` say that
every memory operation keeps the form.
-/
namespace Sys2Proof.Machine

/-! ### The addresses a memory lists -/

theorem Memory.ofBytes_addresses (bytes : List Byte) (a : Nat) :
    (Memory.ofBytes a bytes).map Prod.fst = List.range' a bytes.length := by
  induction bytes generalizing a with
  | nil => rfl
  | cons b bs ih => simp [Memory.ofBytes, ih, List.range'_succ]

/-- What LOAD makes of BUF lists exactly `0 .. n-1` (10_state.md R21). -/
theorem Memory.ofBytes_zero_addresses (bytes : List Byte) :
    (Memory.ofBytes 0 bytes).map Prod.fst = List.range bytes.length := by
  rw [Memory.ofBytes_addresses, List.range_eq_range']

theorem Memory.wf_iff (m : Memory) : m.wf = true ↔ (m.map Prod.fst).Pairwise (· < ·) := by
  induction m with
  | nil => simp [Memory.wf]
  | cons c m ih =>
    cases m with
    | nil => simp [Memory.wf]
    | cons d rest =>
      obtain ⟨a, x⟩ := c
      obtain ⟨b, y⟩ := d
      rw [Memory.wf, Bool.and_eq_true, ih, decide_eq_true_iff]
      simp only [List.map_cons, List.pairwise_cons, List.mem_cons, forall_eq_or_imp]
      constructor
      · rintro ⟨hab, hb, hp⟩
        exact ⟨⟨hab, fun z hz => lt_trans hab (hb z hz)⟩, hb, hp⟩
      · rintro ⟨⟨hab, _⟩, hb, hp⟩
        exact ⟨hab, hb, hp⟩

/-- A memory that lists the addresses `0 .. n-1` is canonical. -/
theorem Memory.wf_of_addresses (m : Memory) (n : Nat) (h : m.map Prod.fst = List.range n) :
    m.wf = true := by
  rw [Memory.wf_iff, h]
  exact List.pairwise_lt_range

/-- LOAD makes a canonical memory. -/
theorem Memory.ofBytes_wf (bytes : List Byte) : (Memory.ofBytes 0 bytes).wf = true :=
  Memory.wf_of_addresses _ _ (Memory.ofBytes_zero_addresses bytes)

/-- Reset leaves a canonical memory. -/
theorem Memory.nil_wf : Memory.wf [] = true := rfl

/-! ### Reading one byte -/

/-- A byte is read where, and only where, its address is listed. -/
theorem Memory.read_isSome_iff (m : Memory) (i : Nat) :
    (m.read i).isSome = true ↔ i ∈ m.map Prod.fst := by
  induction m with
  | nil => simp [Memory.read]
  | cons c m ih =>
    obtain ⟨a, b⟩ := c
    by_cases h : a = i
    · simp [Memory.read, h]
    · simp only [Memory.read, h, if_false, ih, List.map_cons, List.mem_cons, Ne.symm h, false_or]

theorem Memory.read_ofBytes_lt (bytes : List Byte) (a i : Nat) (h : i < a) :
    (Memory.ofBytes a bytes).read i = none := by
  induction bytes generalizing a with
  | nil => rfl
  | cons b bs ih =>
    simp [Memory.ofBytes, Memory.read, show a ≠ i by omega, ih (a + 1) (by omega)]

/-- After LOAD, offset `k` holds byte `k` of the sequence, and no other offset holds one
(70_reset_and_hazards.md R222). -/
theorem Memory.read_ofBytes (bytes : List Byte) (a k : Nat) :
    (Memory.ofBytes a bytes).read (a + k) = bytes[k]? := by
  induction bytes generalizing a k with
  | nil => simp [Memory.ofBytes, Memory.read]
  | cons b bs ih =>
    cases k with
    | zero => simp [Memory.ofBytes, Memory.read]
    | succ k =>
      have h := ih (a + 1) k
      simp only [Memory.ofBytes, Memory.read, show a ≠ a + (k + 1) by omega, if_false]
      rw [show a + (k + 1) = a + 1 + k by omega, h]
      rfl

/-! ### Reading a range -/

@[simp] theorem Memory.readBytes_zero (m : Memory) (a : Nat) : m.readBytes a 0 = .ok [] := rfl

theorem Memory.readBytes_succ_ok_iff (m : Memory) (a n : Nat) (bs : List Byte) :
    m.readBytes a (n + 1) = .ok bs ↔
      ∃ b rest, m.read a = some b ∧ m.readBytes (a + 1) n = .ok rest ∧ bs = b :: rest := by
  rw [Memory.readBytes]
  cases h : m.read a with
  | none => simp
  | some b =>
    cases h' : m.readBytes (a + 1) n with
    | error e => simp
    | ok rest => simp [eq_comm]

/-- A range that is read has its length, and each of its bytes is the buffer's (00_scope.md R10). -/
theorem Memory.readBytes_ok (m : Memory) (n : Nat) :
    ∀ (a : Nat) (bs : List Byte), m.readBytes a n = .ok bs →
      bs.length = n ∧ ∀ k, k < n → m.read (a + k) = bs[k]? := by
  induction n with
  | zero =>
    intro a bs h
    cases h
    exact ⟨rfl, fun k hk => absurd hk (Nat.not_lt_zero k)⟩
  | succ n ih =>
    intro a bs h
    obtain ⟨b, rest, hb, hr, rfl⟩ := (m.readBytes_succ_ok_iff a n bs).mp h
    obtain ⟨hl, hk⟩ := ih (a + 1) rest hr
    refine ⟨by simp [hl], fun k hlt => ?_⟩
    cases k with
    | zero => simpa using hb
    | succ k =>
      rw [show a + (k + 1) = a + 1 + k by omega, hk k (by omega)]
      rfl

/-- A range all of whose bytes are held is read. -/
theorem Memory.readBytes_isOk (m : Memory) (n : Nat) :
    ∀ a : Nat, (∀ k, k < n → (m.read (a + k)).isSome = true) → ∃ bs, m.readBytes a n = .ok bs := by
  induction n with
  | zero => intro a _; exact ⟨[], rfl⟩
  | succ n ih =>
    intro a h
    obtain ⟨b, hb⟩ := Option.isSome_iff_exists.mp (h 0 (by omega))
    obtain ⟨rest, hr⟩ := ih (a + 1) fun k hk => by
      rw [show a + 1 + k = a + (k + 1) by omega]
      exact h (k + 1) (by omega)
    exact ⟨b :: rest, (m.readBytes_succ_ok_iff a n _).mpr ⟨b, rest, hb, hr, rfl⟩⟩

/-- A range that is not read meets an offset of it that holds no byte. -/
theorem Memory.readBytes_error (m : Memory) (n : Nat) :
    ∀ a x : Nat, m.readBytes a n = .error x → a ≤ x ∧ x < a + n ∧ m.read x = none := by
  induction n with
  | zero => intro a x h; cases h
  | succ n ih =>
    intro a x h
    rw [Memory.readBytes] at h
    cases hb : m.read a with
    | none =>
      rw [hb] at h
      cases h
      exact ⟨le_refl _, by omega, hb⟩
    | some b =>
      rw [hb] at h
      cases hr : m.readBytes (a + 1) n with
      | ok rest => rw [hr] at h; cases h
      | error y =>
        rw [hr] at h
        cases h
        obtain ⟨h1, h2, h3⟩ := ih (a + 1) x hr
        exact ⟨by omega, by omega, h3⟩

/-- In a buffer that lists `0 .. n-1`, every range inside it is read (40_cursor_reads.md R100). -/
theorem Memory.readBytes_of_addresses (m : Memory) (n a w : Nat) (h : m.map Prod.fst = List.range n)
    (hw : a + w ≤ n) : ∃ bs, m.readBytes a w = .ok bs := by
  refine m.readBytes_isOk w a fun k hk => ?_
  rw [Memory.read_isSome_iff, h]
  exact List.mem_range.mpr (by omega)

end Sys2Proof.Machine
end

