-- ==== Sys2Proof/Laws/Operands.lean ====
section
/-!
SUPPORT. The operand forms: the big-endian value and the images of the reads.
-/
namespace Sys2Proof.Machine

theorem bigEndian_append_singleton (bs : List Byte) (b : Byte) :
    bigEndian (bs ++ [b]) = bigEndian bs * 256 + b.toNat := by
  simp [bigEndian]

/-- A big-endian value of `n` bytes is below `2^(8*n)` (00_scope.md R10). -/
theorem bigEndian_lt (bs : List Byte) : bigEndian bs < 2 ^ (8 * bs.length) := by
  induction bs using List.reverseRecOn with
  | nil => simp [bigEndian]
  | append_singleton bs b ih =>
    rw [bigEndian_append_singleton, List.length_append, List.length_singleton, Nat.mul_add, Nat.pow_add]
    have hb := b.isLt
    omega

/-- An unsigned read's image is `zext_64` of its value (40_cursor_reads.md R101). -/
@[simp] theorem readImage_unsigned (w : Nat) (bs : List Byte) :
    readImage w .unsigned bs = BitVec.ofNat 64 (bigEndian bs) := by
  simp [readImage, readValue]

/-- The two's-complement value of an unsigned number below `2^n` (40_cursor_reads.md R101). -/
theorem readValue_signed_eq_toInt (w u : Nat) (hw : 0 < w) (hu : u < 2 ^ (8 * w)) :
    readValue w .signed u = (BitVec.ofNat (8 * w) u).toInt := by
  have hmod : u % 2 ^ (8 * w) = u := Nat.mod_eq_of_lt hu
  have hsplit : 2 ^ (8 * w) = 2 * 2 ^ (8 * w - 1) := by
    rw [← pow_succ']
    congr 1
    omega
  rw [BitVec.toInt_eq_msb_cond, BitVec.toNat_ofNat, hmod]
  simp only [readValue, BitVec.msb_eq_getLsbD_last, BitVec.getLsbD_ofNat,
    show 8 * w - 1 < 8 * w by omega, decide_true, Bool.true_and]
  push_cast
  rfl

/-- A signed read's image is `sext_64` of its bytes (40_cursor_reads.md R101). -/
theorem readImage_signed (w : Nat) (bs : List Byte) (hw : 0 < w) (hlen : bs.length = w) :
    readImage w .signed bs = (BitVec.ofNat (8 * w) (bigEndian bs)).signExtend 64 := by
  have hu : bigEndian bs < 2 ^ (8 * w) := hlen ▸ bigEndian_lt bs
  rw [readImage, readValue_signed_eq_toInt w _ hw hu]
  rfl

end Sys2Proof.Machine
end

