-- ==== Sys2Proof/Laws/State.lean ====
section
/-!
SUPPORT. The state after each named update, one lemma per field per update: no proof unfolds an update.
-/
namespace Sys2Proof

/-! ### Registers of `ADDR_W` bits (00_scope.md R8) -/

/-- A number of `ADDR_W` bits is written as it is. -/
theorem Params.narrow_of_lt (p : Params) (n : Nat) (h : n < 2 ^ p.addrW) : p.narrow n = n := Nat.mod_eq_of_lt h

/-- Whatever is written, the register holds a number of `ADDR_W` bits. -/
theorem Params.narrow_lt (p : Params) (n : Nat) : p.narrow n < 2 ^ p.addrW :=
  Nat.mod_lt n (Nat.two_pow_pos p.addrW)

/-- Offsets up to MAX_LEN fit `ADDR_W` bits (10_state.md R24). -/
theorem Params.Legal.lt_of_le_maxLen {p : Params} (h : p.Legal) {n : Nat} (hn : n ≤ p.maxLen) :
    n < 2 ^ p.addrW := by
  have := Nat.two_pow_pos p.addrW
  have := h.1
  omega

end Sys2Proof

namespace Sys2Proof.Machine

variable (s : State)

/-! ### `State.setResult` (10_state.md R26) -/

@[simp] theorem State.setResult_buf (v : Value) : (s.setResult v).buf = s.buf := rfl
@[simp] theorem State.setResult_len (v : Value) : (s.setResult v).len = s.len := rfl
@[simp] theorem State.setResult_pos (v : Value) : (s.setResult v).pos = s.pos := rfl
@[simp] theorem State.setResult_snap (v : Value) : (s.setResult v).snap = s.snap := rfl
@[simp] theorem State.setResult_result (v : Value) : (s.setResult v).result = v := rfl
@[simp] theorem State.setResult_rvalid (v : Value) : (s.setResult v).rvalid = true := rfl
@[simp] theorem State.setResult_crc (v : Value) : (s.setResult v).crc = s.crc := rfl
@[simp] theorem State.setResult_code (v : Value) : (s.setResult v).code = s.code := rfl
@[simp] theorem State.setResult_errOffset (v : Value) : (s.setResult v).errOffset = s.errOffset := rfl
@[simp] theorem State.setResult_errNeeded (v : Value) : (s.setResult v).errNeeded = s.errNeeded := rfl
@[simp] theorem State.setResult_errAvail (v : Value) : (s.setResult v).errAvail = s.errAvail := rfl
@[simp] theorem State.setResult_errCmd (v : Value) : (s.setResult v).errCmd = s.errCmd := rfl
@[simp] theorem State.setResult_params (v : Value) : (s.setResult v).params = s.params := rfl
@[simp] theorem State.setResult_pending (v : Value) : (s.setResult v).pending = s.pending := rfl
@[simp] theorem State.setResult_response (v : Value) : (s.setResult v).response = s.response := rfl

/-! ### `State.powerUp` (10_state.md R34) -/

@[simp] theorem State.powerUp_buf (p : Params) : (State.powerUp p).buf = [] := rfl
@[simp] theorem State.powerUp_len (p : Params) : (State.powerUp p).len = 0 := rfl
@[simp] theorem State.powerUp_pos (p : Params) : (State.powerUp p).pos = 0 := rfl
@[simp] theorem State.powerUp_snap (p : Params) : (State.powerUp p).snap = [] := rfl
@[simp] theorem State.powerUp_rvalid (p : Params) : (State.powerUp p).rvalid = false := rfl
@[simp] theorem State.powerUp_crc (p : Params) : (State.powerUp p).crc = 0 := rfl
@[simp] theorem State.powerUp_code (p : Params) : (State.powerUp p).code = 0 := rfl
@[simp] theorem State.powerUp_errOffset (p : Params) : (State.powerUp p).errOffset = 0 := rfl
@[simp] theorem State.powerUp_errNeeded (p : Params) : (State.powerUp p).errNeeded = 0 := rfl
@[simp] theorem State.powerUp_errAvail (p : Params) : (State.powerUp p).errAvail = 0 := rfl
@[simp] theorem State.powerUp_errCmd (p : Params) : (State.powerUp p).errCmd = 0 := rfl
@[simp] theorem State.powerUp_params (p : Params) : (State.powerUp p).params = p := rfl
@[simp] theorem State.powerUp_pending (p : Params) : (State.powerUp p).pending = [] := rfl
@[simp] theorem State.powerUp_response (p : Params) : (State.powerUp p).response = none := rfl

/-! ### `State.doReset` (10_state.md R34) -/

@[simp] theorem State.doReset_buf : (s.doReset).buf = [] := rfl
@[simp] theorem State.doReset_len : (s.doReset).len = 0 := rfl
@[simp] theorem State.doReset_pos : (s.doReset).pos = 0 := rfl
@[simp] theorem State.doReset_snap : (s.doReset).snap = [] := rfl
@[simp] theorem State.doReset_result : (s.doReset).result = 0 := rfl
@[simp] theorem State.doReset_rvalid : (s.doReset).rvalid = false := rfl
@[simp] theorem State.doReset_crc : (s.doReset).crc = 0 := rfl
@[simp] theorem State.doReset_code : (s.doReset).code = 0 := rfl
@[simp] theorem State.doReset_errOffset : (s.doReset).errOffset = 0 := rfl
@[simp] theorem State.doReset_errNeeded : (s.doReset).errNeeded = 0 := rfl
@[simp] theorem State.doReset_errAvail : (s.doReset).errAvail = 0 := rfl
@[simp] theorem State.doReset_errCmd : (s.doReset).errCmd = 0 := rfl
@[simp] theorem State.doReset_params : (s.doReset).params = s.params := rfl
@[simp] theorem State.doReset_pending : (s.doReset).pending = s.pending := rfl
@[simp] theorem State.doReset_response : (s.doReset).response = s.response := rfl

/-! ### `State.load` (70_reset_and_hazards.md R222) -/

@[simp] theorem State.load_buf (bytes : List Byte) : (s.load bytes).buf = Memory.ofBytes 0 bytes := rfl
@[simp] theorem State.load_len (bytes : List Byte) : (s.load bytes).len = s.params.narrow bytes.length := rfl
@[simp] theorem State.load_pos (bytes : List Byte) : (s.load bytes).pos = 0 := rfl
@[simp] theorem State.load_snap (bytes : List Byte) : (s.load bytes).snap = [] := rfl
@[simp] theorem State.load_result (bytes : List Byte) : (s.load bytes).result = s.result := rfl
@[simp] theorem State.load_rvalid (bytes : List Byte) : (s.load bytes).rvalid = false := rfl
@[simp] theorem State.load_crc (bytes : List Byte) : (s.load bytes).crc = 0 := rfl
@[simp] theorem State.load_code (bytes : List Byte) : (s.load bytes).code = 0 := rfl
@[simp] theorem State.load_errOffset (bytes : List Byte) : (s.load bytes).errOffset = 0 := rfl
@[simp] theorem State.load_errNeeded (bytes : List Byte) : (s.load bytes).errNeeded = 0 := rfl
@[simp] theorem State.load_errAvail (bytes : List Byte) : (s.load bytes).errAvail = 0 := rfl
@[simp] theorem State.load_errCmd (bytes : List Byte) : (s.load bytes).errCmd = 0 := rfl
@[simp] theorem State.load_params (bytes : List Byte) : (s.load bytes).params = s.params := rfl
@[simp] theorem State.load_pending (bytes : List Byte) : (s.load bytes).pending = s.pending := rfl
@[simp] theorem State.load_response (bytes : List Byte) : (s.load bytes).response = s.response := rfl

/-! ### `State.answered` -/

@[simp] theorem State.answered_buf (rest : List Action) (r : Option Response) : (s.answered rest r).buf = s.buf := rfl
@[simp] theorem State.answered_len (rest : List Action) (r : Option Response) : (s.answered rest r).len = s.len := rfl
@[simp] theorem State.answered_pos (rest : List Action) (r : Option Response) : (s.answered rest r).pos = s.pos := rfl
@[simp] theorem State.answered_snap (rest : List Action) (r : Option Response) : (s.answered rest r).snap = s.snap := rfl
@[simp] theorem State.answered_result (rest : List Action) (r : Option Response) : (s.answered rest r).result = s.result := rfl
@[simp] theorem State.answered_rvalid (rest : List Action) (r : Option Response) : (s.answered rest r).rvalid = s.rvalid := rfl
@[simp] theorem State.answered_crc (rest : List Action) (r : Option Response) : (s.answered rest r).crc = s.crc := rfl
@[simp] theorem State.answered_code (rest : List Action) (r : Option Response) : (s.answered rest r).code = s.code := rfl
@[simp] theorem State.answered_errOffset (rest : List Action) (r : Option Response) : (s.answered rest r).errOffset = s.errOffset := rfl
@[simp] theorem State.answered_errNeeded (rest : List Action) (r : Option Response) : (s.answered rest r).errNeeded = s.errNeeded := rfl
@[simp] theorem State.answered_errAvail (rest : List Action) (r : Option Response) : (s.answered rest r).errAvail = s.errAvail := rfl
@[simp] theorem State.answered_errCmd (rest : List Action) (r : Option Response) : (s.answered rest r).errCmd = s.errCmd := rfl
@[simp] theorem State.answered_params (rest : List Action) (r : Option Response) : (s.answered rest r).params = s.params := rfl
@[simp] theorem State.answered_pending (rest : List Action) (r : Option Response) : (s.answered rest r).pending = rest := rfl
@[simp] theorem State.answered_response (rest : List Action) (r : Option Response) : (s.answered rest r).response = r := rfl

/-! ### `State.withCommand` -/

@[simp] theorem State.withCommand_buf (w : Word) : (s.withCommand w).buf = s.buf := rfl
@[simp] theorem State.withCommand_len (w : Word) : (s.withCommand w).len = s.len := rfl
@[simp] theorem State.withCommand_pos (w : Word) : (s.withCommand w).pos = s.pos := rfl
@[simp] theorem State.withCommand_snap (w : Word) : (s.withCommand w).snap = s.snap := rfl
@[simp] theorem State.withCommand_result (w : Word) : (s.withCommand w).result = s.result := rfl
@[simp] theorem State.withCommand_rvalid (w : Word) : (s.withCommand w).rvalid = s.rvalid := rfl
@[simp] theorem State.withCommand_crc (w : Word) : (s.withCommand w).crc = s.crc := rfl
@[simp] theorem State.withCommand_code (w : Word) : (s.withCommand w).code = s.code := rfl
@[simp] theorem State.withCommand_errOffset (w : Word) : (s.withCommand w).errOffset = s.errOffset := rfl
@[simp] theorem State.withCommand_errNeeded (w : Word) : (s.withCommand w).errNeeded = s.errNeeded := rfl
@[simp] theorem State.withCommand_errAvail (w : Word) : (s.withCommand w).errAvail = s.errAvail := rfl
@[simp] theorem State.withCommand_errCmd (w : Word) : (s.withCommand w).errCmd = s.errCmd := rfl
@[simp] theorem State.withCommand_params (w : Word) : (s.withCommand w).params = s.params := rfl
@[simp] theorem State.withCommand_pending (w : Word) : (s.withCommand w).pending = .cmd w :: s.pending := rfl
@[simp] theorem State.withCommand_response (w : Word) : (s.withCommand w).response = s.response := rfl

/-! ### `raise` (60_exceptions.md R203) -/

/-- The offset an error records (60_exceptions.md R200). -/
def errorOffset : BlockError → ErrInfo
  | .truncatedInput offset _ _ => BitVec.ofNat 16 offset
  | .crcMismatch | .illegalCommand | .snapshotOverflow | .snapshotUnderflow | .noResult => 0

/-- The needed bytes an error records (60_exceptions.md R200). -/
def errorNeeded : BlockError → ErrInfo
  | .truncatedInput _ needed _ => BitVec.ofNat 16 needed
  | .crcMismatch | .illegalCommand | .snapshotOverflow | .snapshotUnderflow | .noResult => 0

/-- The available bytes an error records (60_exceptions.md R200). -/
def errorAvail : BlockError → ErrInfo
  | .truncatedInput _ _ available => BitVec.ofNat 16 available
  | .crcMismatch | .illegalCommand | .snapshotOverflow | .snapshotUnderflow | .noResult => 0

/-- All that `raise` does. -/
theorem raise_eq (e : BlockError) (w : Word) :
    raise e w s =
      { s with
        code := errorCode e, errOffset := errorOffset e, errNeeded := errorNeeded e
        errAvail := errorAvail e, errCmd := w } := by
  cases e <;> rfl

@[simp] theorem raise_buf (e : BlockError) (w : Word) : (raise e w s).buf = s.buf := by cases e <;> rfl
@[simp] theorem raise_len (e : BlockError) (w : Word) : (raise e w s).len = s.len := by cases e <;> rfl
@[simp] theorem raise_pos (e : BlockError) (w : Word) : (raise e w s).pos = s.pos := by cases e <;> rfl
@[simp] theorem raise_snap (e : BlockError) (w : Word) : (raise e w s).snap = s.snap := by cases e <;> rfl
@[simp] theorem raise_result (e : BlockError) (w : Word) : (raise e w s).result = s.result := by cases e <;> rfl
@[simp] theorem raise_rvalid (e : BlockError) (w : Word) : (raise e w s).rvalid = s.rvalid := by cases e <;> rfl
@[simp] theorem raise_crc (e : BlockError) (w : Word) : (raise e w s).crc = s.crc := by cases e <;> rfl
@[simp] theorem raise_code (e : BlockError) (w : Word) : (raise e w s).code = errorCode e := by cases e <;> rfl
@[simp] theorem raise_errOffset (e : BlockError) (w : Word) : (raise e w s).errOffset = errorOffset e := by cases e <;> rfl
@[simp] theorem raise_errNeeded (e : BlockError) (w : Word) : (raise e w s).errNeeded = errorNeeded e := by cases e <;> rfl
@[simp] theorem raise_errAvail (e : BlockError) (w : Word) : (raise e w s).errAvail = errorAvail e := by cases e <;> rfl
@[simp] theorem raise_errCmd (e : BlockError) (w : Word) : (raise e w s).errCmd = w := by cases e <;> rfl
@[simp] theorem raise_params (e : BlockError) (w : Word) : (raise e w s).params = s.params := by cases e <;> rfl
@[simp] theorem raise_pending (e : BlockError) (w : Word) : (raise e w s).pending = s.pending := by cases e <;> rfl
@[simp] theorem raise_response (e : BlockError) (w : Word) : (raise e w s).response = s.response := by cases e <;> rfl

theorem errorCode_ne_zero (e : BlockError) : errorCode e ≠ 0 := by cases e <;> simp [errorCode]

theorem errorCode_le (e : BlockError) : (errorCode e).toNat ≤ 6 := by cases e <;> simp [errorCode]

/-- Only TruncatedInput records anything but ERR_CMD (10_state.md R29). -/
theorem errorInfo_zero (e : BlockError) (h : errorCode e ≠ 1) :
    errorOffset e = 0 ∧ errorNeeded e = 0 ∧ errorAvail e = 0 := by
  cases e <;> first | exact ⟨rfl, rfl, rfl⟩ | exact absurd rfl h

/-! ### Views -/

@[simp] theorem State.errored_eq_false_iff : s.errored = false ↔ s.code = 0 := by simp [State.errored]

@[simp] theorem State.errored_eq_true_iff : s.errored = true ↔ s.code ≠ 0 := by simp [State.errored]

theorem State.sp_eq : s.sp = s.snap.length := rfl

theorem State.avail_eq : s.avail = s.len - s.pos := rfl

/-- The bits of STATUS, field by field (10_state.md R28). -/
theorem State.status_getLsbD (i : Nat) :
    s.status.getLsbD i = if i < 8 then s.code.getLsbD i else if i = 8 then s.rvalid else false := by
  have h : s.status.getLsbD i = ((0 : BitVec 23) ++ BitVec.ofBool s.rvalid ++ s.code).getLsbD i := rfl
  rw [h, BitVec.getLsbD_append, BitVec.getLsbD_append]
  by_cases h8 : i < 8
  · simp [h8]
  · by_cases h9 : i = 8
    · subst h9; simp
    · simp [h8, h9, show ¬ i - 8 < 1 by omega]

/-- STATUS shows CODE in its low byte (10_state.md R28). -/
@[simp] theorem statusCode_status : statusCode s.status = s.code := by
  refine BitVec.eq_of_getLsbD_eq fun i hi => ?_
  rw [statusCode, BitVec.getLsbD_extractLsb', State.status_getLsbD]
  simp [hi]

theorem State.resultValue_of_rvalid (h : s.rvalid = true) : s.resultValue = some s.result := by
  simp [State.resultValue, h]

theorem State.resultValue_of_not_rvalid (h : s.rvalid = false) : s.resultValue = none := by
  simp [State.resultValue, h]

end Sys2Proof.Machine
end

