-- ==== Sys2Proof/Laws/Ops.lean ====
section
/-!
SUPPORT. What each shared operation can do, said once: a command (60_exceptions.md R204, R205), and the
bodies of the command rules.
-/
namespace Sys2Proof.Machine

variable {w : Word} {body : State → Effect} {s t : State}

/-! ### Every command -/

/-- With an error latched a command has no effect (60_exceptions.md R204). -/
theorem command_errored (h : s.code ≠ 0) : command w body s = .next s := by
  rw [command, if_pos ((State.errored_eq_true_iff s).mpr h)]

theorem command_of_code_zero (h : s.code = 0) :
    command w body s =
      match body s with
      | .done s' => .next s'
      | .raised e => .next (raise e w s)
      | .stopped f => .fault f := by
  cases hb : body s <;> simp [command, h, hb]

theorem command_done (h : s.code = 0) (hb : body s = .done t) : command w body s = .next t := by
  rw [command_of_code_zero h, hb]

theorem command_raised {e : BlockError} (h : s.code = 0) (hb : body s = .raised e) :
    command w body s = .next (raise e w s) := by
  rw [command_of_code_zero h, hb]

theorem command_stopped {f : Fault} (h : s.code = 0) (hb : body s = .stopped f) :
    command w body s = .fault f := by
  rw [command_of_code_zero h, hb]

/-- All that a command which answers a next state can do: nothing, its body's effect, or an error latched
over the state before it. -/
theorem command_next (h : command w body s = .next t) :
    (s.code ≠ 0 ∧ t = s) ∨ (s.code = 0 ∧ body s = .done t) ∨
      (∃ e, s.code = 0 ∧ body s = .raised e ∧ t = raise e w s) := by
  by_cases hc : s.code = 0
  · rw [command_of_code_zero hc] at h
    cases hb : body s with
    | done s' => rw [hb] at h; cases h; exact .inr (.inl ⟨hc, rfl⟩)
    | raised e => rw [hb] at h; cases h; exact .inr (.inr ⟨e, hc, rfl, rfl⟩)
    | stopped f => rw [hb] at h; cases h
  · rw [command_errored hc] at h
    cases h
    exact .inl ⟨hc, rfl⟩

/-- A command stops only where its body does. -/
theorem command_fault {f : Fault} (h : command w body s = .fault f) : s.code = 0 ∧ body s = .stopped f := by
  by_cases hc : s.code = 0
  · rw [command_of_code_zero hc] at h
    cases hb : body s with
    | done s' => rw [hb] at h; cases h
    | raised e => rw [hb] at h; cases h
    | stopped f' => rw [hb] at h; cases h; exact ⟨hc, rfl⟩
  · rw [command_errored hc] at h
    cases h

/-- No command is refused. -/
theorem command_ne_refused (r : Refusal) : command w body s ≠ .refused r := by
  intro h
  by_cases hc : s.code = 0
  · rw [command_of_code_zero hc] at h
    cases hb : body s <;> rw [hb] at h <;> cases h
  · rw [command_errored hc] at h
    cases h

/-! ### The bodies -/

/-- A read that succeeds (40_cursor_reads.md R101). -/
theorem readBody_done {n : Nat} {sign : Signedness} {advance : Bool}
    (h : readBody n sign advance s = .done t) :
    n ≤ s.avail ∧ ∃ bytes, s.buf.readBytes s.pos n = .ok bytes ∧
      t = { s with
            result := readImage n sign bytes, rvalid := true
            pos := if advance then s.params.narrow (s.pos + n) else s.pos } := by
  rw [readBody] at h
  split at h
  · cases h
  case isFalse hw =>
    refine ⟨Nat.le_of_not_lt hw, ?_⟩
    cases hb : s.buf.readBytes s.pos n with
    | error a => rw [hb] at h; cases h
    | ok bytes =>
      rw [hb] at h
      refine ⟨bytes, rfl, ?_⟩
      cases advance <;> (cases h; rfl)

/-- A read of a buffer range inside the valid bytes succeeds (40_cursor_reads.md R101). -/
theorem readBody_of_bytes {n : Nat} {sign : Signedness} {advance : Bool} {bytes : List Byte}
    (hw : n ≤ s.avail) (hb : s.buf.readBytes s.pos n = .ok bytes) :
    readBody n sign advance s =
      .done { s with
              result := readImage n sign bytes, rvalid := true
              pos := if advance then s.params.narrow (s.pos + n) else s.pos } := by
  rw [readBody, if_neg (Nat.not_lt.mpr hw), hb]
  cases advance <;> rfl

/-- A read past the end (40_cursor_reads.md R100). -/
theorem readBody_truncated {n : Nat} {sign : Signedness} {advance : Bool} (hw : s.avail < n) :
    readBody n sign advance s =
      .raised (.truncatedInput s.pos n s.avail) := by
  rw [readBody, if_pos hw]

/-- The only error a read raises (40_cursor_reads.md R100). -/
theorem readBody_raised {n : Nat} {sign : Signedness} {advance : Bool} {e : BlockError}
    (h : readBody n sign advance s = .raised e) :
    s.avail < n ∧ e = .truncatedInput s.pos n s.avail := by
  rw [readBody] at h
  split at h
  case isTrue hw => cases h; exact ⟨hw, rfl⟩
  case isFalse hw => cases hb : s.buf.readBytes s.pos n <;> rw [hb] at h <;> cases h

/-- A read stops only at a byte that the buffer does not hold (10_state.md R21). -/
theorem readBody_stopped {n : Nat} {sign : Signedness} {advance : Bool} {f : Fault}
    (h : readBody n sign advance s = .stopped f) :
    n ≤ s.avail ∧ ∃ a, s.buf.readBytes s.pos n = .error a ∧ f = .noByteAt a := by
  rw [readBody] at h
  split at h
  · cases h
  case isFalse hw =>
    refine ⟨Nat.le_of_not_lt hw, ?_⟩
    cases hb : s.buf.readBytes s.pos n with
    | error a => rw [hb] at h; cases h; exact ⟨a, rfl, rfl⟩
    | ok bytes => rw [hb] at h; cases h

/-- TAKE_SLICE (41_cursor_control.md R120). -/
theorem takeSliceBody_cases (n : Imm) (s : State) :
    (s.avail < n.toNat ∧ takeSliceBody n s = .raised (.truncatedInput s.pos n.toNat s.avail)) ∨
    (n.toNat ≤ s.avail ∧
      takeSliceBody n s =
        .done { s with result := sliceDescriptor s.pos n, rvalid := true, pos := s.params.narrow (s.pos + n.toNat) }) := by
  by_cases h : n.toNat > s.avail
  · exact .inl ⟨h, by rw [takeSliceBody, if_pos h]⟩
  · exact .inr ⟨Nat.le_of_not_lt h, by rw [takeSliceBody, if_neg h]; rfl⟩

/-- SNAPSHOT (41_cursor_control.md R124). -/
theorem snapshotBody_cases (s : State) :
    (s.sp = s.params.snapDepth ∧ snapshotBody s = .raised .snapshotOverflow) ∨
    (s.sp ≠ s.params.snapDepth ∧ snapshotBody s = .done { s with snap := s.snap ++ [s.pos] }) := by
  by_cases h : s.sp = s.params.snapDepth
  · exact .inl ⟨h, by rw [snapshotBody, if_pos h]⟩
  · exact .inr ⟨h, by rw [snapshotBody, if_neg h]⟩

/-- RESTORE (41_cursor_control.md R125). -/
theorem restoreBody_cases (s : State) :
    (s.snap = [] ∧ restoreBody s = .raised .snapshotUnderflow) ∨
    (∃ ps p, s.snap = ps ++ [p] ∧ restoreBody s = .done { s with snap := ps, pos := p }) := by
  rcases List.eq_nil_or_concat s.snap with h | ⟨ps, p, h⟩
  · exact .inl ⟨h, by simp [restoreBody, h]⟩
  · rw [List.concat_eq_append] at h
    exact .inr ⟨ps, p, h, by simp [restoreBody, h]⟩

/-- CRC_SPAN (42_crc.md R142). -/
theorem crcSpanBody_cases (start : Imm) (s : State) :
    (s.pos < start.toNat ∧ crcSpanBody start s = .raised .illegalCommand) ∨
    (start.toNat ≤ s.pos ∧ ∃ bytes,
      s.buf.readBytes start.toNat (s.pos - start.toNat) = .ok bytes ∧
      crcSpanBody start s = .done { s with crc := crc16 s.crc bytes }) ∨
    (start.toNat ≤ s.pos ∧ ∃ a,
      s.buf.readBytes start.toNat (s.pos - start.toNat) = .error a ∧
      crcSpanBody start s = .stopped (.noByteAt a)) := by
  by_cases h : start.toNat > s.pos
  · exact .inl ⟨h, by rw [crcSpanBody, if_pos h]⟩
  · refine .inr ?_
    cases hb : s.buf.readBytes start.toNat (s.pos - start.toNat) with
    | ok bytes => exact .inl ⟨Nat.le_of_not_lt h, bytes, rfl, by rw [crcSpanBody, if_neg h, hb]⟩
    | error a => exact .inr ⟨Nat.le_of_not_lt h, a, rfl, by rw [crcSpanBody, if_neg h, hb]⟩

/-- CRC_BYTE (42_crc.md R143). -/
theorem crcByteBody_cases (imm : Imm) (s : State) :
    (imm.extractLsb' 8 8 ≠ 0 ∧ crcByteBody imm s = .raised .illegalCommand) ∨
    (imm.extractLsb' 8 8 = 0 ∧
      crcByteBody imm s = .done { s with crc := crc16Step s.crc (immByte imm) }) := by
  by_cases h : imm.extractLsb' 8 8 = 0
  · exact .inr ⟨h, by rw [crcByteBody, if_neg (not_not.mpr h)]⟩
  · exact .inl ⟨h, by rw [crcByteBody, if_pos h]⟩

/-- CRC_CHECK (42_crc.md R145), in the order of 60_exceptions.md R205. -/
theorem crcCheckBody_cases (s : State) :
    (s.rvalid = false ∧ crcCheckBody s = .raised .noResult) ∨
    (s.rvalid = true ∧ s.crc ≠ s.result.extractLsb' 0 16 ∧ crcCheckBody s = .raised .crcMismatch) ∨
    (s.rvalid = true ∧ s.crc = s.result.extractLsb' 0 16 ∧ crcCheckBody s = .done s) := by
  cases hv : s.rvalid with
  | false => exact .inl ⟨rfl, by simp [crcCheckBody, hv]⟩
  | true =>
    by_cases h : s.crc = s.result.extractLsb' 0 16
    · exact .inr (.inr ⟨rfl, h, by simp [crcCheckBody, hv, h]⟩)
    · exact .inr (.inl ⟨rfl, h, by simp [crcCheckBody, hv, h]⟩)

/-! ### The host's register read -/

/-- The snapshot entries of the register map (10_state.md R33). -/
theorem State.registerValue_snap (s : State) (i : Nat) :
    s.registerValue (0x10 + i) =
      if i < s.params.snapDepth then s.snap[i]?.map fun p => BitVec.ofNat 32 p else none := by
  rw [Nat.add_comm]
  rfl

theorem State.readRegister_ok_iff (s : State) (n : BitVec 8) (word : Word) :
    s.readRegister n = .ok word ↔ s.registerValue n.toNat = some word := by
  unfold State.readRegister
  cases s.registerValue n.toNat <;> simp

theorem State.readRegister_error_iff (s : State) (n : BitVec 8) (r : Refusal) :
    s.readRegister n = .error r ↔ s.registerValue n.toNat = none ∧ r = .registerHasNoValue n := by
  unfold State.readRegister
  cases s.registerValue n.toNat <;> simp [eq_comm]

/-! ### Every instruction is a command of its own word -/

/-- The body of each command's rule. -/
def instrBody : Instr → State → Effect
  | .readU8 advance => readBody 1 .unsigned advance
  | .readU16 advance => readBody 2 .unsigned advance
  | .readU32 advance => readBody 4 .unsigned advance
  | .readU64 advance => readBody 8 .unsigned advance
  | .readI16 advance => readBody 2 .signed advance
  | .readI32 advance => readBody 4 .signed advance
  | .takeSlice n => takeSliceBody n
  | .remaining => produce fun s => BitVec.ofNat 64 s.avail
  | .position => produce fun s => BitVec.ofNat 64 s.pos
  | .snapshot => snapshotBody
  | .restore => restoreBody
  | .crcInit => fun s => .done { s with crc := 0x0000 }
  | .crcByte imm => crcByteBody imm
  | .crcSpan start => crcSpanBody start
  | .crcRead => produce fun s => s.crc.zeroExtend 64
  | .crcCheck => crcCheckBody

theorem exec_eq_command (i : Instr) (s : State) : exec i s = command (encode i) (instrBody i) s := by
  cases i <;> rfl

end Sys2Proof.Machine
end

