-- ==== Sys2Proof/Laws/PerInstr.lean ====
section
/-!
SUPPORT. What is stated of every instruction as syntax, one lemma per constructor: its encoded word
carries its opcode, its flag and its operand, and nothing in the reserved field.
-/
namespace Sys2Proof.Laws

/-- The fields of the encoded word (30_encoding.md R70 to R73). -/
def EncodeFields.Statement (i : Instr) : Prop :=
  opcodeOf (wordOp (encode i)) = some (instrOpcode i) ∧ wordAdv (encode i) = instrAdv i ∧
    wordRsv (encode i) = 0 ∧ wordImm (encode i) = instrImm i

theorem EncodeFields.any (i : Instr) : EncodeFields.Statement i := by
  simp [EncodeFields.Statement, encode]

theorem EncodeFields.readU8 (advance : Bool) : EncodeFields.Statement (.readU8 advance) := EncodeFields.any _

theorem EncodeFields.readU16 (advance : Bool) : EncodeFields.Statement (.readU16 advance) := EncodeFields.any _

theorem EncodeFields.readU32 (advance : Bool) : EncodeFields.Statement (.readU32 advance) := EncodeFields.any _

theorem EncodeFields.readU64 (advance : Bool) : EncodeFields.Statement (.readU64 advance) := EncodeFields.any _

theorem EncodeFields.readI16 (advance : Bool) : EncodeFields.Statement (.readI16 advance) := EncodeFields.any _

theorem EncodeFields.readI32 (advance : Bool) : EncodeFields.Statement (.readI32 advance) := EncodeFields.any _

theorem EncodeFields.takeSlice (n : Imm) : EncodeFields.Statement (.takeSlice n) := EncodeFields.any _

theorem EncodeFields.remaining : EncodeFields.Statement .remaining := EncodeFields.any _

theorem EncodeFields.position : EncodeFields.Statement .position := EncodeFields.any _

theorem EncodeFields.snapshot : EncodeFields.Statement .snapshot := EncodeFields.any _

theorem EncodeFields.restore : EncodeFields.Statement .restore := EncodeFields.any _

theorem EncodeFields.crcInit : EncodeFields.Statement .crcInit := EncodeFields.any _

theorem EncodeFields.crcByte (imm : Imm) : EncodeFields.Statement (.crcByte imm) := EncodeFields.any _

theorem EncodeFields.crcSpan (start : Imm) : EncodeFields.Statement (.crcSpan start) := EncodeFields.any _

theorem EncodeFields.crcRead : EncodeFields.Statement .crcRead := EncodeFields.any _

theorem EncodeFields.crcCheck : EncodeFields.Statement .crcCheck := EncodeFields.any _

end Sys2Proof.Laws
end

