-- ==== Sys2Proof/Tests/Slice0.lean ====
section
/-!
SUPPORT. Tests. Every expected result comes from spec/95_test_vectors.md (its numbers V1 to V109) or from the
example of the rule named, and every state or word is written out by hand. A theorem `witness_<Name>` shows
concrete states and operands that meet the hypotheses of `Obligations.<Name>`, one conjunct for each clause,
at the boundary of its range.
-/
namespace Sys2Proof.Tests
open Sys2Proof.Machine

/-! ### Helpers -/

/-- The block after LOAD of these bytes, as the vectors of spec/95_test_vectors.md section 2 start. -/
def loaded (bytes : List Byte) : State := State.reset.load bytes

/-- The next state of an outcome, if it is one. -/
def nextOf : Host.Outcome State Fault Refusal → Option State
  | .next t => some t
  | .fault _ => none
  | .refused _ => none

/-- The refusal of an outcome, if it is one. -/
def refusalOf : Host.Outcome State Fault Refusal → Option Refusal
  | .next _ => none
  | .fault _ => none
  | .refused r => some r

/-- The error of a result, if it is one. -/
def errorOf {ε α : Type} : Except ε α → Option ε
  | .ok _ => none
  | .error e => some e

/-- CODE, POS and RESULT where it holds a value, after a command. -/
def shown (o : Host.Outcome State Fault Refusal) : Option (BitVec 8 × Nat × Option Value) :=
  (nextOf o).map fun t => (t.code, t.pos, t.resultValue)

/-- CODE and the error-information registers after a command. -/
def errorShown (o : Host.Outcome State Fault Refusal) :
    Option (BitVec 8 × ErrInfo × ErrInfo × ErrInfo × Word) :=
  (nextOf o).map fun t => (t.code, t.errOffset, t.errNeeded, t.errAvail, t.errCmd)

/-! ### Well-formedness and decoding -/

theorem test_crcByte_upper_byte_is_ill_formed : ¬ (Instr.crcByte 0x0100).WellFormed := by decide
theorem test_crcByte_255_is_well_formed : (Instr.crcByte 0x00FF).WellFormed := by decide

/-- The words of R73 and R102 to R107, bit 31 leftmost: consuming and peek forms. -/
theorem test_decode_reads :
    decodeTableWord 32 0x00000101 = some (.readU8 true) ∧ decodeTableWord 32 0x00000001 = some (.readU8 false) ∧
    decodeTableWord 32 0x00000102 = some (.readU16 true) ∧ decodeTableWord 32 0x00000002 = some (.readU16 false) ∧
    decodeTableWord 32 0x00000103 = some (.readU32 true) ∧ decodeTableWord 32 0x00000003 = some (.readU32 false) ∧
    decodeTableWord 32 0x00000104 = some (.readU64 true) ∧ decodeTableWord 32 0x00000004 = some (.readU64 false) ∧
    decodeTableWord 32 0x00000105 = some (.readI16 true) ∧ decodeTableWord 32 0x00000005 = some (.readI16 false) ∧
    decodeTableWord 32 0x00000106 = some (.readI32 true) ∧ decodeTableWord 32 0x00000006 = some (.readI32 false) := by
  decide

/-- The words of R120 (example), R122 to R125 and R141 to R145. -/
theorem test_decode_control_and_crc :
    decodeTableWord 32 0x003A0008 = some (.takeSlice 58) ∧ decodeTableWord 32 0x00000009 = some .remaining ∧
    decodeTableWord 32 0x0000000A = some .position ∧ decodeTableWord 32 0x0000000B = some .snapshot ∧
    decodeTableWord 32 0x0000000C = some .restore ∧ decodeTableWord 32 0x00000010 = some .crcInit ∧
    decodeTableWord 32 0x00310011 = some (.crcByte 0x31) ∧ decodeTableWord 32 0x00080012 = some (.crcSpan 8) ∧
    decodeTableWord 32 0x00000013 = some .crcRead ∧ decodeTableWord 32 0x00000014 = some .crcCheck := by
  decide

/-- V60 to V63 and R75: unassigned opcodes. -/
theorem test_decode_unassigned_opcodes :
    errorOf (decode 0x00000000) = some (.unassignedOpcode 0x00) ∧
    errorOf (decode 0x00000107) = some (.unassignedOpcode 0x07) ∧
    errorOf (decode 0x0000000D) = some (.unassignedOpcode 0x0D) ∧
    errorOf (decode 0x0000000F) = some (.unassignedOpcode 0x0F) ∧
    errorOf (decode 0x00000015) = some (.unassignedOpcode 0x15) ∧
    errorOf (decode 0x000000FF) = some (.unassignedOpcode 0xFF) := by
  decide

/-- V64 to V70: ill-formed words with an assigned opcode. -/
theorem test_decode_ill_formed_words :
    errorOf (decode 0x00000109) = some .advanceNotAllowed ∧ errorOf (decode 0x00000111) = some .advanceNotAllowed ∧
    errorOf (decode 0x00010101) = some .immediateNotAllowed ∧ errorOf (decode 0x00000201) = some .reservedNotZero ∧
    errorOf (decode 0x01000011) = some .immediateNotAllowed ∧ errorOf (decode 0x0001000B) = some .immediateNotAllowed ∧
    errorOf (decode 0x00010009) = some .immediateNotAllowed := by
  decide

/-! ### One step of each command -/

/-- V1. -/
theorem test_readU8_255 : shown (exec (.readU8 true) (loaded [0xFF])) = some (0, 1, some 0xFF) := by decide
/-- V2. -/
theorem test_readU8_empty :
    errorShown (exec (.readU8 true) (loaded [])) = some (1, 0, 1, 0, 0x00000101) := by decide
/-- V3. -/
theorem test_readU16 : shown (exec (.readU16 true) (loaded [0xFF, 0xFE])) = some (0, 2, some 0xFFFE) := by decide
/-- V8, from POS 2. -/
theorem test_readU16_peek_truncates :
    errorShown (exec (.readU16 false) { loaded [0xFF, 0xFE, 0xFD] with pos := 2 }) =
      some (1, 2, 2, 1, 0x00000002) := by decide
/-- V9. -/
theorem test_readU32_no_sign :
    shown (exec (.readU32 true) (loaded [0xFF, 0xFF, 0xFF, 0xFF])) = some (0, 4, some 0x00000000FFFFFFFF) := by
  decide
/-- V16, the first command: a peek, and the byte order. -/
theorem test_readU32_peek :
    shown (exec (.readU32 false) (loaded [0x12, 0x34, 0x56, 0x78])) = some (0, 0, some 0x12345678) := by decide
/-- Program P2, row 7. -/
theorem test_readU64 :
    shown (exec (.readU64 true) (loaded [0x01, 0x02, 0xFF, 0xFE, 0x80, 0x00, 0x00, 0x00])) =
      some (0, 8, some 0x0102FFFE80000000) := by decide
/-- V14. -/
theorem test_readU64_truncates :
    errorShown (exec (.readU64 true) (loaded [1, 2, 3, 4, 5, 6, 7])) = some (1, 0, 8, 7, 0x00000104) := by decide
/-- V4. -/
theorem test_readI16_negative :
    shown (exec (.readI16 true) (loaded [0xFF, 0xFE])) = some (0, 2, some 0xFFFFFFFFFFFFFFFE) := by decide
/-- V6. -/
theorem test_readI16_positive :
    shown (exec (.readI16 true) (loaded [0x7F, 0xFF])) = some (0, 2, some 0x7FFF) := by decide
/-- V11. -/
theorem test_readI32_negative :
    shown (exec (.readI32 true) (loaded [0x80, 0, 0, 0])) = some (0, 4, some 0xFFFFFFFF80000000) := by decide
/-- V12. -/
theorem test_readI32_positive :
    shown (exec (.readI32 true) (loaded [0x7F, 0xFF, 0xFF, 0xFF])) = some (0, 4, some 0x7FFFFFFF) := by decide
/-- V21, from POS 1. -/
theorem test_takeSlice :
    shown (exec (.takeSlice 2) { loaded [1, 2, 3] with pos := 1 }) = some (0, 3, some 0x0000000100000002) := by
  decide
/-- V23. -/
theorem test_takeSlice_truncates :
    errorShown (exec (.takeSlice 65535) (loaded [1, 2, 3])) = some (1, 0, 65535, 3, 0xFFFF0008) := by decide
/-- V25. -/
theorem test_remaining : shown (exec .remaining (loaded [1, 2, 3])) = some (0, 0, some 3) := by decide
/-- V26, from POS 1. -/
theorem test_position : shown (exec .position { loaded [1, 2, 3] with pos := 1 }) = some (0, 1, some 1) := by
  decide
/-- The example of R124. -/
theorem test_snapshot :
    (nextOf (exec .snapshot { loaded (List.replicate 40 0) with pos := 35 })).map (fun t => t.snap) = some [35] := by
  decide +kernel
/-- V28: the fifth SNAPSHOT. -/
theorem test_snapshot_overflow :
    (nextOf (exec .snapshot { loaded [1, 2, 3] with snap := [0, 0, 0, 0] })).map
        (fun t => (t.code, t.errCmd, t.sp)) =
      some (4, 0x0000000B, 4) := by decide
/-- V30, its RESTORE: POS 2, snapshots 0 and 1. -/
theorem test_restore :
    (nextOf (exec .restore { loaded [1, 2, 3] with pos := 2, snap := [0, 1] })).map (fun t => (t.pos, t.snap)) =
      some (1, [0]) := by decide
/-- V29. -/
theorem test_restore_underflow :
    errorShown (exec .restore (loaded [1, 2, 3])) = some (5, 0, 0, 0, 0x0000000C) := by decide
/-- The example of R141. -/
theorem test_crcInit : (nextOf (exec .crcInit { loaded [] with crc := 0xD126 })).map (fun t => t.crc) = some 0x0000 := by
  decide
/-- V41. -/
theorem test_crcByte : (nextOf (exec (.crcByte 0x01) (loaded []))).map (fun t => t.crc) = some 0xC0C1 := by decide
/-- V44, its second command. -/
theorem test_crcByte_from_C601 :
    (nextOf (exec (.crcByte 0x01) { loaded [] with crc := 0xC601 })).map (fun t => t.crc) = some 0x00C6 := by decide
/-- V45, its second command. -/
theorem test_crcSpan :
    (nextOf (exec (.crcSpan 0) { loaded [0x08, 0x01] with pos := 2 })).map (fun t => t.crc) = some 0x00C6 := by
  decide +kernel
/-- V48, its second command. -/
theorem test_crcSpan_beyond_pos :
    errorShown (exec (.crcSpan 2) { loaded [1, 2] with pos := 1 }) = some (3, 0, 0, 0, 0x00020012) := by decide
/-- V53, its second command. -/
theorem test_crcRead : shown (exec .crcRead { loaded [] with crc := 0xD4C1 }) = some (0, 0, some 0xD4C1) := by
  decide
/-- V52, its second command: the high half is ignored. -/
theorem test_crcCheck_match :
    shown (exec .crcCheck ((loaded []).setResult 0xFFFF0000)) = some (0, 0, some 0xFFFF0000) := by decide
/-- V50, its second command. -/
theorem test_crcCheck_mismatch :
    errorShown (exec .crcCheck ((loaded []).setResult 0xD126)) = some (2, 0, 0, 0, 0x00000014) := by decide

/-! ### Errors, the host and the client -/

/-- V73: well-formedness is checked before the bounds. -/
theorem test_ill_formed_before_truncated :
    errorShown (runWord 0x00010101 (loaded [])) = some (3, 0, 0, 0, 0x00010101) := by decide
/-- V72, its second command: sticky. -/
theorem test_sticky :
    nextOf (exec .snapshot { loaded [1] with code := 5, errCmd := 0x0000000C }) =
      some { loaded [1] with code := 5, errCmd := 0x0000000C } := by decide
/-- V83. -/
theorem test_load_clears :
    (nextOf (step { loaded [] with code := 2, crc := 0x3963, snap := [0, 0], pending := [.load [1, 2, 3]] })).map
        (fun t => (t.len, t.pos, t.sp, t.crc, t.status)) =
      some (3, 0, 0, 0, 0) := by decide
/-- R8: with ADDR_W 2, MAX_LEN is at most 3, and a register of two bits keeps the low two bits of 5. -/
theorem test_addrW :
    ¬ ({ maxLen := 4, snapDepth := 1, addrW := 2 } : Params).Legal ∧
    ({ maxLen := 3, snapDepth := 1, addrW := 2 } : Params).Legal ∧
    ({ maxLen := 3, snapDepth := 1, addrW := 2 } : Params).narrow 5 = 1 := by decide
/-- V84. -/
theorem test_load_too_long :
    refusalOf (step { State.reset with pending := [.load (List.replicate 1281 0)] }) =
      some (.loadTooLong 1281) := by decide +kernel
/-- R33 and R10: the low and the high half of RESULT. -/
theorem test_register_result :
    ((loaded []).setResult 0x000000220000003A).registerValue 0x03 = some 0x3A ∧
    ((loaded []).setResult 0x000000220000003A).registerValue 0x04 = some 0x22 := by decide
/-- The entries of the table that R146 names. -/
theorem test_crc_table :
    crcTable[0x01]? = some 0xC0C1 ∧ crcTable[0x08]? = some 0xC601 ∧ crcTable[0x80]? = some 0xA001 ∧
    crcTable[0xFF]? = some 0x4040 := by decide
/-- R77 and R78. -/
theorem test_assembler :
    assembleLine "READ_U16.PEEK ; look" = some [0x00000002] ∧ assembleLine "SKIP 58" = some [0x003A0008] ∧
    assembleLine "CRC_OVER 0x8" = some [0x00000010, 0x00080012] ∧ assembleLine "RESTORE.PEEK" = none ∧
    assembleLine "CRC_BYTE 256" = none := by decide +kernel
/-- R126: an unmatched SNAPSHOT makes a program ill-formed. -/
theorem test_unmatched_snapshot :
    snapshotsMatched 0 [.snapshot, .readU8 true, .snapshot, .restore, .restore] = true ∧
    snapshotsMatched 0 [.snapshot, .snapshot, .restore] = false := by decide
/-- The slice of V21, after a LOAD (R121), and before one: it names the last two bytes. -/
theorem test_slice_view :
    errorOf (nestedLoad [.load []] 0x0000000100000002 (loaded [1, 2, 3])) = some .staleDescriptor ∧
    (nestedLoad [.regRead 1] 0x0000000100000002 (loaded [1, 2, 3])).toOption = some (.load [2, 3]) := by decide

/-- The minimal frame of V108. -/
def minimalFrame : List Char := "00000000000000030800000000C281".toList

/-- The verdict of the client on a frame, from reset, with every timestamp valid. -/
def verdict (text : List Char) : Except Stop Packet := (decodeFrame (fun _ => true) text State.reset).1

/-- V108. -/
theorem test_minimal_frame :
    (verdict minimalFrame).toOption =
      some { preamble := 0, dataLength := 3, codec := 8, recordCount1 := 0, samples := [],
             recordCount2 := 0, storedCrc := 0xC281 } := by decide +kernel
/-- V106, V107 and V92. -/
theorem test_rejections :
    errorOf (verdict "".toList) = some (.rejected (.truncatedInput 0 4 0)) ∧
    errorOf (verdict "000".toList) = some (.rejected .malformedHexInput) ∧
    errorOf (verdict "00000001".toList) = some (.rejected .badPreamble) := by decide +kernel

/-! ### Witnesses: the hypotheses of the statements can be met -/

/-- The block with these bytes loaded and POS at `p`. -/
def cursorAt (bytes : List Byte) (p : Nat) : State := { loaded bytes with pos := p }

/-- A state a run can reach: three bytes, all consumed, two snapshots, a result and a CRC. -/
def busy : State :=
  { cursorAt [1, 2, 3] 3 with snap := [0, 3], result := 5, rvalid := true, crc := 0xC0C1 }

/-- `busy` after a READ_U8, which truncated. -/
def failed : State :=
  { busy with code := 1, errOffset := 3, errNeeded := 1, errAvail := 0, errCmd := 0x00000101 }

/-- A block with MAX_LEN 2, SNAP_DEPTH 1 and ADDR_W 2, after reset. -/
def small : State := State.powerUp { maxLen := 2, snapDepth := 1, addrW := 2 }

theorem snaps_le (s : State) (h : (s.snap.all fun p => decide (p ≤ s.len)) = true) :
    ∀ p ∈ s.snap, p ≤ s.len := fun p hp => of_decide_eq_true (List.all_eq_true.mp h p hp)

theorem busy_inv : Inv busy where
  params := by decide
  buffer := by decide
  len_le := by decide
  pos_le := by decide
  sp_le := by decide
  snap_le := snaps_le _ (by decide)
  code_le := by decide
  no_info := by decide
  no_cmd := by decide

theorem failed_inv : Inv failed where
  params := by decide
  buffer := by decide
  len_le := by decide
  pos_le := by decide
  sp_le := by decide
  snap_le := snaps_le _ (by decide)
  code_le := by decide
  no_info := by decide
  no_cmd := by decide

theorem failed_record_true : ErrorRecordTrue failed := fun _ => by rfl

/-- `busy` with these actions asked for. -/
def busyWith (actions : List Action) : State := { busy with pending := actions }

theorem busyWith_inv (actions : List Action) : Inv (busyWith actions) :=
  ⟨busy_inv.1, busy_inv.2, busy_inv.3, busy_inv.4, busy_inv.5, busy_inv.6, busy_inv.7, busy_inv.8, busy_inv.9⟩

theorem witness_DecodeEncodeRoundTrip :
    (Instr.crcByte 0x00FF).WellFormed ∧ (Instr.takeSlice 0xFFFF).WellFormed := by decide

theorem witness_DecodedWordIsItsEncoding :
    decode 0xFFFF0012 = .ok (.crcSpan 0xFFFF) ∧ decode 0x00FF0011 = .ok (.crcByte 0xFF) := ⟨by rfl, by rfl⟩

/-- Well-formed words at the bounds of R74, and ill-formed ones beside them, with and without an error. -/
theorem witness_WellFormedWordsAndOnlyThoseRun :
    (decode 0x00FF0011).toOption = some (.crcByte 0xFF) ∧ (decode 0x00000106).toOption = some (.readI32 true) ∧
    errorOf (decode 0x01000011) = some .immediateNotAllowed ∧
    errorOf (decode 0x00000108) = some .advanceNotAllowed ∧ busy.code = 0 ∧ failed.code ≠ 0 := by decide

theorem witness_UnassignedOpcodesAreIllegal :
    busy.code = 0 ∧ ((0x0001000F : Word).extractLsb' 0 8).toNat ∈ [0x00, 0x07, 0x0D, 0x0E, 0x0F] ∧
    0x15 ≤ ((0x00000115 : Word).extractLsb' 0 8).toNat := by decide

theorem witness_StepRunsDecodedCommand :
    (busyWith [.cmd 0x00000014, .reset]).pending = .cmd 0x00000014 :: [.reset] ∧
    decode 0x00000014 = .ok .crcCheck := ⟨by rfl, by rfl⟩

theorem witness_IdleStepKeepsState : busy.pending = [] := by decide

theorem witness_ResetActionAndAfter : (busyWith [.reset]).pending = .reset :: [] := by decide

/-- MAX_LEN bytes, one byte more, and none. -/
theorem witness_LoadAction :
    small.params.Legal ∧
    ({ small with pending := [.load [1, 2]] } : State).pending = .load [1, 2] :: [] ∧
    [1, 2].length ≤ small.params.maxLen ∧ small.params.maxLen < [1, 2, 3].length ∧
    ([] : List Byte).length ≤ small.params.maxLen := by decide

theorem witness_ErrorIsSticky :
    failed.code ≠ 0 ∧
    ({ failed with pending := [.cmd 0x0000000A] } : State).pending = .cmd 0x0000000A :: [] ∧
    ∃ t, step { failed with pending := [.load []] } = .next t ∧ t.code ≠ failed.code :=
  ⟨by decide, by decide, _, rfl, by decide⟩

/-- TruncatedInput, and another error. -/
theorem witness_ErrorIsPrecise :
    busy.code = 0 ∧ (∃ t, runWord 0x00000101 busy = .next t ∧ t.code = 1) ∧
    (∃ t, runWord 0x00000014 busy = .next t ∧ t.code ≠ 0 ∧ t.code ≠ 1) :=
  ⟨by decide, ⟨_, rfl, by decide⟩, ⟨_, rfl, by decide⟩⟩

theorem witness_ErrorRegistersKeptWithoutError :
    (∃ t, exec .position busy = .next t ∧ t.code = busy.code) ∧
    ∃ t, exec .position failed = .next t ∧ t.code = failed.code :=
  ⟨⟨_, rfl, by decide⟩, ⟨_, rfl, by decide⟩⟩

/-- A latched error that is true, and a step that latches one. -/
theorem witness_ErrorRecordStaysTrue :
    (Inv failed ∧ ErrorRecordTrue failed ∧ ∃ t, step failed = .next t) ∧
    (Inv (busyWith [.cmd 0x00000101]) ∧ ErrorRecordTrue (busyWith [.cmd 0x00000101]) ∧
      ∃ t, step (busyWith [.cmd 0x00000101]) = .next t ∧ t.code ≠ 0) :=
  ⟨⟨failed_inv, failed_record_true, _, rfl⟩,
    ⟨busyWith_inv _, fun h => absurd rfl h, _, rfl, by decide⟩⟩

/-- The last byte: `POS + 1 = LEN`. -/
theorem witness_ReadU8Result :
    let s := cursorAt [7, 0xFF] 1
    s.code = 0 ∧ s.len < 2 ^ s.params.addrW ∧ s.pos + 1 ≤ s.len ∧ s.buf.read s.pos = some 0xFF := by decide

/-- The last two bytes: `POS + 2 = LEN`. -/
theorem witness_ReadU16Result :
    let s := cursorAt [7, 0x80, 0x01] 1
    s.code = 0 ∧ s.len < 2 ^ s.params.addrW ∧ s.pos + 2 ≤ s.len ∧
    s.buf.read s.pos = some 0x80 ∧ s.buf.read (s.pos + 1) = some 0x01 := by decide

/-- The last four bytes: `POS + 4 = LEN`. -/
theorem witness_ReadU32Result :
    let s := cursorAt [7, 0x80, 1, 2, 3] 1
    s.code = 0 ∧ s.len < 2 ^ s.params.addrW ∧ s.pos + 4 ≤ s.len ∧
    s.buf.read s.pos = some 0x80 ∧ s.buf.read (s.pos + 1) = some 1 ∧
    s.buf.read (s.pos + 2) = some 2 ∧ s.buf.read (s.pos + 3) = some 3 := by decide

/-- The last eight bytes: `POS + 8 = LEN`. -/
theorem witness_ReadU64Result :
    let s := cursorAt [7, 0x80, 1, 2, 3, 4, 5, 6, 7] 1
    s.code = 0 ∧ s.len < 2 ^ s.params.addrW ∧ s.pos + 8 ≤ s.len ∧
    s.buf.read s.pos = some 0x80 ∧ s.buf.read (s.pos + 1) = some 1 ∧
    s.buf.read (s.pos + 2) = some 2 ∧ s.buf.read (s.pos + 3) = some 3 ∧
    s.buf.read (s.pos + 4) = some 4 ∧ s.buf.read (s.pos + 5) = some 5 ∧
    s.buf.read (s.pos + 6) = some 6 ∧ s.buf.read (s.pos + 7) = some 7 := by decide

/-- A negative value in the last two bytes. -/
theorem witness_ReadI16Result :
    let s := cursorAt [7, 0x80, 0x00] 1
    s.code = 0 ∧ s.len < 2 ^ s.params.addrW ∧ s.pos + 2 ≤ s.len ∧
    s.buf.read s.pos = some 0x80 ∧ s.buf.read (s.pos + 1) = some 0x00 := by decide

/-- A negative value in the last four bytes. -/
theorem witness_ReadI32Result :
    let s := cursorAt [7, 0x80, 0, 0, 0] 1
    s.code = 0 ∧ s.len < 2 ^ s.params.addrW ∧ s.pos + 4 ≤ s.len ∧
    s.buf.read s.pos = some 0x80 ∧ s.buf.read (s.pos + 1) = some 0 ∧
    s.buf.read (s.pos + 2) = some 0 ∧ s.buf.read (s.pos + 3) = some 0 := by decide

/-- Seven bytes left for eight, and none left for one. -/
theorem witness_ReadTruncates :
    let s := loaded [1, 2, 3, 4, 5, 6, 7]
    s.code = 0 ∧ s.pos ≤ s.len ∧ s.len - s.pos < 8 ∧
    busy.code = 0 ∧ busy.pos ≤ busy.len ∧ busy.len - busy.pos < 1 := by decide

/-- A peek that succeeds and one that truncates. -/
theorem witness_PeekTwiceIsPeekOnce :
    (∃ t, exec (.readI16 false) (loaded [0x80, 0]) = .next t ∧ t.code = 0) ∧
    ∃ t, exec (.readU64 false) busy = .next t ∧ t.code = 1 :=
  ⟨⟨_, rfl, by decide⟩, ⟨_, rfl, by decide⟩⟩

theorem witness_MixedWidthReadsAgree :
    (loaded [0x12, 0x34, 0x56, 0x78]).code = 0 ∧
    (loaded [0x12, 0x34, 0x56, 0x78]).len < 2 ^ (loaded [0x12, 0x34, 0x56, 0x78]).params.addrW ∧
    ∃ t, exec (.readU32 false) (loaded [0x12, 0x34, 0x56, 0x78]) = .next t ∧ t.code = 0 :=
  ⟨by decide, by decide, _, rfl, by decide⟩

/-- The rest of the buffer, and no byte at `POS = LEN`. -/
theorem witness_TakeSliceResult :
    let s := cursorAt [1, 2, 3] 1
    s.code = 0 ∧ s.len < 2 ^ s.params.addrW ∧ s.pos + (2 : Imm).toNat ≤ s.len ∧
    busy.code = 0 ∧ busy.len < 2 ^ busy.params.addrW ∧ busy.pos + (0 : Imm).toNat ≤ busy.len := by decide

/-- One byte more than are left. -/
theorem witness_TakeSliceTruncates :
    let s := cursorAt [1, 2, 3] 1
    s.code = 0 ∧ s.pos ≤ s.len ∧ s.len < s.pos + (3 : Imm).toNat := by decide

/-- `POS = LEN`. -/
theorem witness_RemainingResult : busy.code = 0 ∧ busy.pos ≤ busy.len := by decide

theorem witness_PositionResult : busy.code = 0 := by decide
theorem witness_CrcInitResult : busy.code = 0 := by decide
theorem witness_CrcByteResult : busy.code = 0 := by decide
theorem witness_CrcReadResult : busy.code = 0 := by decide

/-- One free entry, and none. -/
theorem witness_SnapshotResult :
    let s := { busy with snap := [0, 0, 1] }
    let full := { busy with snap := [0, 0, 1, 3] }
    s.code = 0 ∧ s.sp < s.params.snapDepth ∧ full.code = 0 ∧ full.sp = full.params.snapDepth := by decide

/-- Two snapshots, one, and none. -/
theorem witness_RestoreResult :
    busy.code = 0 ∧ busy.snap = [0] ++ [3] ∧ ({ busy with snap := [2] } : State).snap = [] ++ [2] ∧
    ({ busy with snap := [] } : State).snap = [] := by decide

theorem witness_RestoreUndoesLookahead :
    ∃ t u v, (loaded [1, 2, 3]).code = 0 ∧ (loaded [1, 2, 3]).sp < (loaded [1, 2, 3]).params.snapDepth ∧
      exec .snapshot (loaded [1, 2, 3]) = .next t ∧
      (∀ i ∈ [Instr.readU16 true, .crcSpan 0], i ≠ .snapshot ∧ i ≠ .restore) ∧
      ExecsTo [.readU16 true, .crcSpan 0] t u ∧ u.code = 0 ∧ u.pos ≠ (loaded [1, 2, 3]).pos ∧
      exec .restore u = .next v :=
  ⟨_, _, _, by decide, by decide, rfl, by decide, ⟨_, rfl, _, rfl, rfl⟩, by decide, by decide, rfl⟩

/-- One byte left, and a READ_U8 asked for. -/
def reading : State := { busyWith [.cmd 0x00000101] with pos := 2 }

theorem reading_inv : Inv reading :=
  ⟨busy_inv.1, busy_inv.2, busy_inv.3, by decide, busy_inv.5, busy_inv.6, busy_inv.7, busy_inv.8, busy_inv.9⟩

/-- Each of the four ways. -/
theorem witness_PosMovesInFourWays :
    (Inv reading ∧ ∃ t, step reading = .next t ∧ t.pos = 3) ∧
    (Inv (busyWith [.cmd 0x00000008]) ∧ ∃ t, step (busyWith [.cmd 0x00000008]) = .next t) ∧
    (Inv (busyWith [.cmd 0x0000000C]) ∧ ∃ t, step (busyWith [.cmd 0x0000000C]) = .next t) ∧
    (Inv (busyWith [.reset]) ∧ ∃ t, step (busyWith [.reset]) = .next t) ∧
    (Inv (busyWith [.load [9]]) ∧ ∃ t, step (busyWith [.load [9]]) = .next t) :=
  ⟨⟨reading_inv, _, rfl, by decide⟩, ⟨busyWith_inv _, _, rfl⟩, ⟨busyWith_inv _, _, rfl⟩,
    ⟨busyWith_inv _, _, rfl⟩, ⟨busyWith_inv _, _, rfl⟩⟩

/-- The least ill-formed immediate. -/
theorem witness_CrcByteUpperByteIllegal : busy.code = 0 ∧ 256 ≤ (256 : Imm).toNat := by decide

/-- A span of two bytes that ends at POS, and the empty span at POS. -/
theorem witness_CrcSpanResult :
    (busy.code = 0 ∧ (1 : Imm).toNat + ([2, 3] : List Byte).length = busy.pos ∧
      ∀ k, k < ([2, 3] : List Byte).length →
        busy.buf.read ((1 : Imm).toNat + k) = ([2, 3] : List Byte)[k]?) ∧
    (busy.code = 0 ∧ (3 : Imm).toNat + ([] : List Byte).length = busy.pos) := by decide

/-- `A = POS + 1`. -/
theorem witness_CrcSpanBeyondPosIllegal : busy.code = 0 ∧ busy.pos < (4 : Imm).toNat := by decide

/-- No result, a match, a mismatch. -/
theorem witness_CrcCheckResult :
    busy.code = 0 ∧ (loaded []).code = 0 ∧ (loaded []).rvalid = false ∧
    busy.rvalid = true ∧ busy.result.extractLsb' 0 16 ≠ busy.crc ∧
    ({ busy with result := 0xFFFFC0C1 } : State).result.extractLsb' 0 16 = busy.crc := by decide

theorem witness_CrcSpanIsCrcBytes :
    busy.code = 0 ∧ (1 : Imm).toNat + ([2, 3] : List Byte).length = busy.pos ∧
    (∀ k, k < ([2, 3] : List Byte).length →
      busy.buf.read ((1 : Imm).toNat + k) = ([2, 3] : List Byte)[k]?) ∧
    ∃ t, exec (.crcSpan 1) busy = .next t :=
  ⟨by decide, by decide, by decide, _, rfl⟩

/-- A bit of the first byte and the last bit of the byte, of a non-empty range. -/
theorem witness_CrcLaws : 0 < 8 ∧ 7 < 8 ∧ crc16 0x0000 [0x01 ^^^ BitVec.twoPow 8 7] ≠ crc16 0x0000 [0x01] := by
  decide

/-- A named register, RESULT while it holds a value, and the top snapshot. -/
theorem witness_RegisterReadsAnswer :
    let s := busyWith [.regRead 0x11]
    s.pending = .regRead 0x11 :: [] ∧ s.rvalid = true ∧ 1 < s.params.snapDepth ∧
    (0x11 : BitVec 8).toNat = 0x10 + 1 ∧ s.snap[1]? = some 3 ∧
    (busyWith [.regRead 0x0A]).pending = .regRead 0x0A :: [] ∧
    (busyWith [.regRead 0x04]).pending = .regRead 0x04 :: [] := by decide

/-- No result; a number below the snapshots; the first dead snapshot; the first number past the map. -/
theorem witness_RegisterReadsRefuse :
    ({ loaded [] with pending := [.regRead 0x04] } : State).pending = .regRead 0x04 :: [] ∧
    (loaded []).rvalid = false ∧ (0x0B : BitVec 8).toNat ∈ [0x0B, 0x0C, 0x0D, 0x0E, 0x0F] ∧
    (0x0F : BitVec 8).toNat ∈ [0x0B, 0x0C, 0x0D, 0x0E, 0x0F] ∧
    (busyWith [.regRead 0x12]).pending = .regRead 0x12 :: [] ∧ 0x10 + busy.sp ≤ (0x12 : BitVec 8).toNat ∧
    0x10 + busy.params.snapDepth ≤ (0x14 : BitVec 8).toNat := by decide

theorem witness_ResultWriters :
    (∃ t, producesValue .remaining = true ∧ busy.code = 0 ∧ exec .remaining busy = .next t ∧ t.code = 0) ∧
    (∃ t, producesValue (.readU8 true) = true ∧ (cursorAt [1] 0).code = 0 ∧
      exec (.readU8 true) (cursorAt [1] 0) = .next t ∧ t.code = 0) ∧
    (∃ t, exec .crcInit busy = .next t ∧ producesValue .crcInit = false) ∧
    (∃ t, exec (.readU8 true) busy = .next t ∧ t.code ≠ 0) ∧
    (∃ t, step (busyWith [.load []]) = .next t) ∧ (∃ t, step (busyWith [.reset]) = .next t) ∧
    ((loaded []).code = 0 ∧ (loaded []).rvalid = false) ∧
    ({ loaded [] with pending := [.regRead 0x03] } : State).pending = .regRead 0x03 :: [] :=
  ⟨⟨_, by decide, by decide, rfl, by decide⟩, ⟨_, by decide, by decide, rfl, by decide⟩, ⟨_, rfl, by decide⟩,
    ⟨_, rfl, by decide⟩, ⟨_, rfl⟩, ⟨_, rfl⟩, by decide, by decide⟩

theorem witness_CrcRegisterWriters :
    (∃ t, updatesCrc .crcRead = false ∧ exec .crcRead busy = .next t) ∧
    (∃ t, step (busyWith [.load [1]]) = .next t) ∧ ∃ t, step (busyWith [.reset]) = .next t :=
  ⟨⟨_, by decide, rfl⟩, ⟨_, rfl⟩, ⟨_, rfl⟩⟩

theorem witness_SnapshotStackWriters :
    (Instr.takeSlice 0 ≠ .snapshot ∧ Instr.takeSlice 0 ≠ .restore ∧ ∃ t, exec (.takeSlice 0) busy = .next t) ∧
    (busy.snap ≠ [] ∧ (∃ t, step (busyWith [.load [1]]) = .next t) ∧ ∃ t, step (busyWith [.reset]) = .next t) :=
  ⟨⟨by decide, by decide, _, rfl⟩, by decide, ⟨_, rfl⟩, _, rfl⟩

theorem witness_CommandsNeverWriteBuffer : ∃ t, exec (.crcSpan 0) busy = .next t := ⟨_, rfl⟩

/-- Parameters other than this hardware's. -/
theorem witness_ResetSatisfiesInv : small.params.Legal := by decide

/-- With a saved position. -/
theorem witness_OffsetRegistersFit : Inv busy ∧ 3 ∈ busy.snap := ⟨busy_inv, by decide⟩

theorem witness_StepKeepsInv :
    Inv (busyWith [.cmd 0x0000000C]) ∧ ∃ t, step (busyWith [.cmd 0x0000000C]) = .next t ∧ t.pos = 3 ∧ t.sp = 1 :=
  ⟨busyWith_inv _, _, rfl, by decide, by decide⟩

theorem witness_EveryCommandCompletes :
    Inv (busyWith [.cmd 0x00000012]) ∧ (busyWith [.cmd 0x00000012]).pending = .cmd 0x00000012 :: [] :=
  ⟨busyWith_inv _, by decide⟩

/-- Two states that differ in a RESULT that holds no value, with a step that goes on and one that is
refused. -/
theorem witness_DeadResultInvisible :
    let s := { loaded [1] with pending := [.cmd 0x00000101] }
    let r := { loaded [1] with pending := [.regRead 0x03] }
    (SameButDeadResult s { s with result := 9 } ∧ ∃ s', step s = .next s') ∧
    (SameButDeadResult r { r with result := 9 } ∧ ∃ x, step r = .refused x) :=
  ⟨⟨⟨rfl, by decide⟩, _, rfl⟩, ⟨⟨rfl, by decide⟩, _, rfl⟩⟩

theorem witness_LoadForgetsThePast :
    let s := busyWith [.load [5], .cmd 0x00000101]
    let t := { State.reset with pending := [.load [5], .cmd 0x00000101] }
    s.params = t.params ∧ s.pending = .load [5] :: [.cmd 0x00000101] ∧
    t.pending = .load [5] :: [.cmd 0x00000101] ∧ ∃ s', StepsTo (1 + 1) s s' :=
  ⟨by decide, by decide, by decide, _, _, rfl, _, rfl, rfl⟩

theorem witness_BlocksAreIndependent :
    ∃ b1 b2, (0 : Nat) ≠ 1 ∧ stepBlock 0 [busyWith [.reset], busyWith [.cmd 0x0000000A]] = .next b1 ∧
      stepBlock 1 b1 = .next b2 :=
  ⟨_, _, by decide, rfl, rfl⟩

/-- The first and the last digit of each kind, and the characters just outside. -/
theorem witness_HexConversion :
    hexBytes ['0', 'f', 'A', '9'] = some [0x0F, 0xA9] ∧ hexDigit '0' = some 0 ∧ hexDigit '9' = some 9 ∧
    hexDigit 'a' = some 10 ∧ hexDigit 'f' = some 15 ∧ hexDigit 'A' = some 10 ∧ hexDigit 'F' = some 15 ∧
    hexDigit '/' = none ∧ hexDigit ':' = none ∧ hexDigit '`' = none ∧ hexDigit 'g' = none ∧
    hexDigit '@' = none ∧ hexDigit 'G' = none := by decide

theorem witness_AssembledWordsDecode :
    assembleLine "CRC_BYTE 255" = some [0x00FF0011] ∧ (0x00FF0011 : Word) ∈ [(0x00FF0011 : Word)] := by
  decide +kernel

/-- V108. -/
theorem witness_ValidFramesSatisfyTheEnvelope :
    State.reset.params.Legal ∧ ((decodeFrame (fun _ => true) minimalFrame State.reset).1).toOption.isSome = true := by
  decide +kernel

/-- A rejection, and a text of one byte more than MAX_LEN. -/
theorem witness_ClientNeverFaults :
    small.params.Legal ∧
    errorOf (decodeFrame (fun _ => true) ['0', '0'] small).1 = some (.rejected (.truncatedInput 0 4 1)) ∧
    hexBytes ['0', '0', '0', '0', '0', '0'] = some [0, 0, 0] ∧ small.params.maxLen < [0, 0, 0].length ∧
    errorOf (decodeFrame (fun _ => true) ['0', '0', '0', '0', '0', '0'] small).1 =
      some (.refused (.loadTooLong 3)) := by decide +kernel

end Sys2Proof.Tests
end

