-- ==== Sys2Proof/Proofs/Reset.lean ====
section
/-!
PROOFS. The registers after reset (10_state.md R34), as facts about the block with any parameters at
power-up.
-/
namespace Sys2Proof.Machine

/-- A buffer that lists no byte holds none at any offset (10_state.md R21). -/
@[simp] theorem Memory.read_nil (a : Nat) : Memory.read [] a = none := rfl

/-- STATUS has no bit set but those of CODE and RVALID (10_state.md R28). -/
theorem State.status_eq_zero {s : State} (hcode : s.code = 0) (hrvalid : s.rvalid = false) :
    s.status = 0 := by
  refine BitVec.eq_of_getLsbD_eq fun i _ => ?_
  simp [State.status_getLsbD, hcode, hrvalid]

@[simp] theorem State.powerUp_sp (p : Params) : (State.powerUp p).sp = 0 := by
  rw [State.sp_eq, State.powerUp_snap, List.length_nil]

@[simp] theorem State.powerUp_status (p : Params) : (State.powerUp p).status = 0 :=
  State.status_eq_zero (State.powerUp_code p) (State.powerUp_rvalid p)

theorem State.powerUp_read (p : Params) (a : Nat) : (State.powerUp p).buf.read a = none := by
  rw [State.powerUp_buf, Memory.read_nil]

/-- Settles O8, field by field: the state after reset is the power-up state of this hardware's parameters. -/
theorem resetRegisters : Obligations.ResetRegisters := by
  unfold Obligations.ResetRegisters State.reset
  exact ⟨State.powerUp_len _, State.powerUp_pos _, State.powerUp_sp _, State.powerUp_crc _,
    State.powerUp_status _, State.powerUp_code _, State.powerUp_rvalid _,
    State.powerUp_errOffset _, State.powerUp_errNeeded _, State.powerUp_errAvail _,
    State.powerUp_errCmd _, State.powerUp_read _⟩

end Sys2Proof.Machine
end

/-!
PROOFS. Which words decode (30_encoding.md R70 to R75): by the conditions the decoder tests, by the bits of
the word, and for a word built from its fields; and what the block does with a word that does not decode.
-/
namespace Sys2Proof

/-! ### The numbers of the opcode map (R73) -/

theorem exists_opcodeOf_iff (b : Byte) :
    (∃ op, opcodeOf b = some op) ↔
      b.toNat ∈ [0x01, 0x02, 0x03, 0x04, 0x05, 0x06, 0x08, 0x09, 0x0A, 0x0B, 0x0C, 0x10, 0x11, 0x12, 0x13, 0x14] := by
  change _ ↔ b.toNat ∈ (opcodeMap.map Prod.fst).map BitVec.toNat
  rw [List.mem_map_of_injective BitVec.toNat_injective, ← Option.isSome_iff_exists, opcodeOf,
    List.lookup_isSome_iff]
  simp

theorem opcodeIsRead_iff (op : Opcode) :
    opcodeIsRead op = true ↔ (opcodeNumber op).toNat ∈ [0x01, 0x02, 0x03, 0x04, 0x05, 0x06] := by
  cases op <;> decide

theorem upperByte_eq_zero_iff (imm : Imm) : imm.extractLsb' 8 8 = 0 ↔ imm.toNat < 256 := by
  have hlt : imm.toNat < 65536 := imm.isLt
  rw [← BitVec.toNat_inj, BitVec.extractLsb'_toNat, Nat.shiftRight_eq_div_pow, BitVec.ofNat_eq_ofNat,
    BitVec.toNat_ofNat, Nat.zero_mod]
  omega

/-- The constraint on IMM by the number of the opcode (R72, R74 (d)). -/
theorem immAllowed_iff (op : Opcode) (imm : Imm) :
    immAllowed op imm = true ↔
      ((opcodeNumber op).toNat ∉ [0x08, 0x11, 0x12] → imm = 0) ∧
        ((opcodeNumber op).toNat = 0x11 → imm.toNat < 256) := by
  cases op
  case crcByte =>
    rw [immAllowed, beq_iff_eq, upperByte_eq_zero_iff]
    simp [opcodeNumber]
  all_goals simp [immAllowed, opcodeNumber]

/-! ### The words that decode (R74) -/

/-- `w` is a well-formed word of the opcode `op`: no condition of R74 is broken. -/
structure WellFormedAs (w : Word) (op : Opcode) : Prop where
  /-- R74 (a). -/
  assigned : opcodeOf (wordOp w) = some op
  /-- R74 (b). -/
  reserved : wordRsv w = 0
  /-- R74 (c). -/
  advance : wordAdv w = true → opcodeIsRead op = true
  /-- R74 (d). -/
  immediate : immAllowed op (wordImm w) = true

theorem WellFormedAs.decode_eq {w : Word} {op : Opcode} (h : WellFormedAs w op) :
    decode w = .ok (instrOf op (wordAdv w) (wordImm w)) := by
  have hflag : ¬ (wordAdv w = true ∧ opcodeIsRead op = false) := by
    rintro ⟨hadv, hread⟩
    simp [h.advance hadv] at hread
  simp [decode, h.assigned, h.reserved, hflag, h.immediate]

/-- A word that passes every test of the decoder is well-formed; any other is rejected. -/
theorem wellFormedAs_or_decode_error (w : Word) :
    (∃ op, WellFormedAs w op) ∨ ∃ e, decode w = .error e := by
  unfold decode
  split
  next => exact .inr ⟨_, rfl⟩
  next op hop =>
    split_ifs with hrsv hadv himm
    · exact .inr ⟨_, rfl⟩
    · exact .inr ⟨_, rfl⟩
    · exact .inr ⟨_, rfl⟩
    · exact .inl ⟨op, hop, not_not.mp hrsv, by simpa using hadv, by simpa using himm⟩

/-- R74 by the bits of the word, as the statement WellFormedWordsAndOnlyThoseRun writes it. -/
def WellFormedByBits (w : Word) : Prop :=
  let op := (w.extractLsb' 0 8).toNat
  op ∈ [0x01, 0x02, 0x03, 0x04, 0x05, 0x06, 0x08, 0x09, 0x0A, 0x0B, 0x0C, 0x10, 0x11, 0x12, 0x13, 0x14] ∧
    w.extractLsb' 9 7 = 0 ∧ (w.getLsbD 8 = true → op ∈ [0x01, 0x02, 0x03, 0x04, 0x05, 0x06]) ∧
    (op ∉ [0x08, 0x11, 0x12] → w.extractLsb' 16 16 = 0) ∧ (op = 0x11 → (w.extractLsb' 16 16).toNat < 256)

theorem wellFormedByBits_iff (w : Word) : WellFormedByBits w ↔ ∃ op, WellFormedAs w op := by
  constructor
  · rintro ⟨hmem, hrsv, hadv, himm⟩
    obtain ⟨op, hop⟩ := (exists_opcodeOf_iff (wordOp w)).mpr hmem
    have hnum : opcodeNumber op = w.extractLsb' 0 8 := opcodeNumber_of_opcodeOf _ _ hop
    rw [← hnum] at hadv himm
    exact ⟨op, hop, hrsv, fun h => (opcodeIsRead_iff op).mpr (hadv h), (immAllowed_iff op _).mpr himm⟩
  · rintro ⟨op, hop, hrsv, hadv, himm⟩
    have hnum : opcodeNumber op = w.extractLsb' 0 8 := opcodeNumber_of_opcodeOf _ _ hop
    rw [opcodeIsRead_iff, hnum] at hadv
    rw [immAllowed_iff, hnum] at himm
    exact ⟨(exists_opcodeOf_iff (wordOp w)).mp ⟨op, hop⟩, hrsv, hadv, himm⟩

/-! ### Words built from their fields (R70) -/

theorem decode_packWord (op : Opcode) {adv : Bool} {imm : Imm} (hadv : adv = true → opcodeIsRead op = true)
    (himm : immAllowed op imm = true) :
    decode (packWord imm adv (opcodeNumber op)) = .ok (instrOf op adv imm) := by
  have h : WellFormedAs (packWord imm adv (opcodeNumber op)) op :=
    ⟨by simp, by simp, by simpa using hadv, by simpa using himm⟩
  simpa using h.decode_eq

/-- The word of an opcode with `IMM = 0` and, for the reads, `ADV = 1` (R73). -/
def canonicalWord (op : Opcode) : Word := packWord 0 (opcodeIsRead op) (opcodeNumber op)

theorem decode_canonicalWord (op : Opcode) :
    decode (canonicalWord op) = .ok (instrOf op (opcodeIsRead op) 0) :=
  decode_packWord op id (by cases op <;> rfl)

/-- IMM is the upper half of a word; the lower half holds the other three fields (R70). -/
theorem packWord_eq_append (imm : Imm) (adv : Bool) (op : Byte) :
    packWord imm adv op = imm ++ ((0 : BitVec 7) ++ BitVec.ofBool adv ++ op : BitVec 16) := by
  rw [packWord, BitVec.append_assoc, BitVec.append_assoc, BitVec.append_assoc]
  rfl

/-- A word with `ADV = 0`, by its two halves (R70, R72). -/
theorem decode_imm_append (op : Opcode) {imm : Imm} (himm : immAllowed op imm = true) :
    decode (imm ++ ((0 : BitVec 7) ++ BitVec.ofBool false ++ opcodeNumber op : BitVec 16)) =
      .ok (instrOf op false imm) := by
  rw [← packWord_eq_append]
  exact decode_packWord op (by simp) himm

theorem immAllowed_crcByte_zeroExtend (b : Byte) : immAllowed .crcByte (b.zeroExtend 16) = true := by
  have hlt : b.toNat < 256 := b.isLt
  rw [immAllowed, beq_iff_eq, upperByte_eq_zero_iff, BitVec.toNat_setWidth]
  omega

end Sys2Proof

namespace Sys2Proof.Machine

/-! ### What the block does with a word (R74) -/

theorem runWord_of_decode_ok {w : Word} {i : Instr} (h : decode w = .ok i) (s : State) :
    runWord w s = exec i s := by
  rw [runWord, h]

theorem runWord_of_decode_error {w : Word} {e : DecodeError} (h : decode w = .error e) (s : State) :
    runWord w s = command w (fun _ => .raised .illegalCommand) s := by
  rw [runWord, h]

/-- With no error latched, a word that does not decode raises IllegalCommand (60_exceptions.md R201, R203). -/
theorem runWord_illegal {w : Word} {e : DecodeError} {s : State} (h : decode w = .error e) (hs : s.code = 0) :
    runWord w s =
      .next { s with code := 3, errOffset := 0, errNeeded := 0, errAvail := 0, errCmd := w } := by
  rw [runWord_of_decode_error h, command_raised hs rfl, raise_eq]
  rfl

/-- With an error latched, a word that does not decode has no effect (60_exceptions.md R204). -/
theorem runWord_illegal_errored {w : Word} {e : DecodeError} {s : State} (h : decode w = .error e)
    (hs : s.code ≠ 0) : runWord w s = .next s := by
  rw [runWord_of_decode_error h, command_errored hs]

/-- Settles O4: the bits say what the decoder tests, and a word either passes all its tests or is
rejected. -/
theorem wellFormedWordsAndOnlyThoseRun : Obligations.WellFormedWordsAndOnlyThoseRun := by
  intro w
  change (WellFormedByBits w → _) ∧ (¬ WellFormedByBits w → _)
  rw [wellFormedByBits_iff]
  constructor
  · rintro ⟨op, hw⟩
    exact ⟨_, hw.decode_eq, runWord_of_decode_ok hw.decode_eq⟩
  · intro hw s
    obtain ⟨e, he⟩ := (wellFormedAs_or_decode_error w).resolve_left hw
    exact ⟨runWord_illegal he, runWord_illegal_errored he⟩

/-- Settles O5: the ranges of R75 hold no number of the opcode map. -/
theorem unassignedOpcodesAreIllegal : Obligations.UnassignedOpcodesAreIllegal := by
  intro w s hs hunassigned
  have hill : ¬ ∃ op, WellFormedAs w op := by
    rintro ⟨op, hw⟩
    have hmem := (exists_opcodeOf_iff (w.extractLsb' 0 8)).mp ⟨op, hw.assigned⟩
    simp only [List.mem_cons, List.not_mem_nil, or_false] at hmem hunassigned
    omega
  obtain ⟨e, he⟩ := (wellFormedAs_or_decode_error w).resolve_left hill
  exact runWord_illegal he hs

/-- Settles O3: the words of the opcode map are the canonical ones, and the operand of the three commands
that have one is the upper half of the word. -/
theorem canonicalWordsDecode : Obligations.CanonicalWordsDecode :=
  ⟨decode_canonicalWord .readU8, decode_canonicalWord .readU16, decode_canonicalWord .readU32,
    decode_canonicalWord .readU64, decode_canonicalWord .readI16, decode_canonicalWord .readI32,
    decode_canonicalWord .takeSlice, decode_canonicalWord .remaining, decode_canonicalWord .position,
    decode_canonicalWord .snapshot, decode_canonicalWord .restore, decode_canonicalWord .crcInit,
    decode_canonicalWord .crcByte, decode_canonicalWord .crcSpan, decode_canonicalWord .crcRead,
    decode_canonicalWord .crcCheck, fun _ => decode_imm_append .takeSlice rfl,
    fun b => decode_imm_append .crcByte (immAllowed_crcByte_zeroExtend b),
    fun _ => decode_imm_append .crcSpan rfl⟩

end Sys2Proof.Machine

/-!
PROOFS. The read of more bytes than remain (40_cursor_reads.md R100), as a fact about any command whose
body is the shared read body.
-/
namespace Sys2Proof.Machine

/-- R100 for every command that reads `n` bytes, whatever its signedness and whether it advances. -/
theorem exec_read_truncated {i : Instr} {s : State} {n : Nat} {sign : Signedness} {advance : Bool}
    (hbody : instrBody i = readBody n sign advance) (hs : s.code = 0) (hw : s.len - s.pos < n) :
    exec i s =
      .next { s with
        code := 1, errOffset := BitVec.ofNat 16 s.pos, errNeeded := BitVec.ofNat 16 n
        errAvail := BitVec.ofNat 16 (s.len - s.pos), errCmd := encode i } := by
  have hraised : instrBody i s = .raised (.truncatedInput s.pos n s.avail) := by
    rw [hbody, readBody_truncated hw]
  rw [exec_eq_command, command_raised hs hraised, raise_eq]
  rfl

/-- Settles O21: each of the six forms has the shared read body, of its own width and signedness. -/
theorem readTruncates : Obligations.ReadTruncates := by
  intro s adv hs _ p hp hw
  have hread : ∃ sign, instrBody p.1 = readBody p.2 sign adv := by
    simp only [List.mem_cons, List.not_mem_nil, or_false] at hp
    obtain rfl | rfl | rfl | rfl | rfl | rfl := hp
    · exact ⟨.unsigned, rfl⟩
    · exact ⟨.unsigned, rfl⟩
    · exact ⟨.unsigned, rfl⟩
    · exact ⟨.unsigned, rfl⟩
    · exact ⟨.signed, rfl⟩
    · exact ⟨.signed, rfl⟩
  obtain ⟨sign, hbody⟩ := hread
  exact exec_read_truncated hbody hs hw

end Sys2Proof.Machine

/-!
PROOFS. The CRC function (42_crc.md): a round is linear and invertible, and rounds that no 1 leaves only shift.
The table form (R146) and the four laws (R148) follow.
-/
namespace Sys2Proof.Machine

/-! ### Rounds -/

theorem crcRounds_zero_right (n : Nat) : crcRounds n 0 = 0 := by
  induction n with
  | zero => rfl
  | succ n ih => exact ih

/-- Bit 15 of the result tells whether 0xA001 was folded in, so only 0 is sent to 0 (R148 (c)). -/
theorem eq_zero_of_crcRound_eq_zero {c : Crc} (h : crcRound c = 0) : c = 0 := by
  have hround (i : Nat) : (crcRound c).getLsbD i = false := by rw [h]; exact BitVec.getLsbD_zero
  rcases hout : c.getLsbD 0
  · simp only [crcRound, hout, Bool.false_eq_true, if_false, BitVec.getLsbD_ushiftRight] at hround
    refine BitVec.eq_of_getLsbD_eq fun i _ => ?_
    cases i with
    | zero => simpa using hout
    | succ i => simpa [Nat.add_comm] using hround i
  · exact absurd (hround 15) (by simp [crcRound, hout])

theorem crcRound_injective : Function.Injective crcRound := by
  intro a b h
  rw [← BitVec.xor_eq_zero_iff]
  exact eq_zero_of_crcRound_eq_zero (by rw [crcRound_xor, h]; exact BitVec.xor_self)

theorem crcRounds_injective (n : Nat) : Function.Injective (crcRounds n) := by
  induction n with
  | zero => exact Function.injective_id
  | succ n ih => exact ih.comp crcRound_injective

/-- While only zeros leave, the polynomial is never folded in. -/
theorem crcRounds_eq_ushiftRight {n : Nat} {c : Crc} (h : ∀ i < n, c.getLsbD i = false) :
    crcRounds n c = c >>> n := by
  induction n generalizing c with
  | zero => rfl
  | succ n ih =>
    have hround : crcRound c = c >>> 1 := by
      rw [crcRound, h 0 n.succ_pos, if_neg Bool.false_ne_true]
    have hrest : ∀ i < n, (c >>> 1).getLsbD i = false := fun i hi => by
      rw [BitVec.getLsbD_ushiftRight]
      exact h (1 + i) (by omega)
    rw [crcRounds, hround, ih hrest, ← BitVec.shiftRight_add, Nat.add_comm]

/-! ### One byte -/

/-- A byte that equals the low byte of the register cancels it, and the rest is shifted down. -/
theorem crc16Step_low_byte (c : Crc) : crc16Step c (c.extractLsb' 0 8) = c >>> 8 := by
  rw [crc16Step, crcRounds_eq_ushiftRight]
  · exact BitVec.eq_of_getLsbD_eq fun i _ => by simp
  · intro i hi
    simp [hi, show i < 16 by omega]

theorem crc16Step_zero : crc16Step 0 0 = 0 := crcRounds_zero_right 8

theorem crc16Step_xor (c d : Crc) (a b : Byte) :
    crc16Step (c ^^^ d) (a ^^^ b) = crc16Step c a ^^^ crc16Step d b := by
  rw [crc16Step, crc16Step, crc16Step, ← crcRounds_xor]
  simp only [BitVec.zeroExtend_eq_setWidth, BitVec.setWidth_xor]
  ac_rfl

/-- The upper byte of the register is only shifted down; its low byte acts only through its exclusive-or with
the byte taken in. The table form rests on this (R146). -/
theorem crc16Step_eq_shift_xor (c : Crc) (b : Byte) :
    crc16Step c b = (c >>> 8) ^^^ crc16Step 0 (c.extractLsb' 0 8 ^^^ b) := by
  rw [← crc16Step_low_byte c, ← crc16Step_xor]
  simp only [BitVec.ofNat_eq_ofNat, BitVec.xor_zero, ← BitVec.xor_assoc, BitVec.xor_self, BitVec.zero_xor]

theorem crc16Step_injective_crc (b : Byte) : Function.Injective fun c => crc16Step c b := fun _ _ h =>
  (BitVec.xor_left_inj _).mp (crcRounds_injective 8 h)

theorem crc16Step_injective_byte (c : Crc) : Function.Injective (crc16Step c) := fun a b h => by
  have hext := (BitVec.xor_right_inj _).mp (crcRounds_injective 8 h)
  simpa using congrArg (BitVec.setWidth 8) hext

/-! ### Any number of bytes -/

theorem crc16_append (c : Crc) (xs ys : List Byte) : crc16 c (xs ++ ys) = crc16 (crc16 c xs) ys :=
  List.foldl_append

theorem crc16_replicate_zero (n : Nat) : crc16 0 (List.replicate n 0) = 0 := by
  induction n with
  | zero => rfl
  | succ n ih => rwa [List.replicate_succ, crc16_cons, crc16Step_zero]

theorem crc16_injective (bs : List Byte) : Function.Injective fun c => crc16 c bs := by
  induction bs with
  | nil => exact Function.injective_id
  | cons b bs ih => exact ih.comp (crc16Step_injective_crc b)

theorem flip_bit_ne (b : Byte) {k : Nat} (hk : k < 8) : b ^^^ BitVec.twoPow 8 k ≠ b := fun h => by
  simpa [hk] using congrArg (BitVec.getLsbD · k) h

theorem crc16_ne_of_byte_ne (c : Crc) (xs ys : List Byte) {a b : Byte} (h : a ≠ b) :
    crc16 c (xs ++ a :: ys) ≠ crc16 c (xs ++ b :: ys) := by
  rw [crc16_append, crc16_append, crc16_cons, crc16_cons]
  exact (crc16_injective ys).ne ((crc16Step_injective_byte _).ne h)

/-- The two bytes of the register, low byte first, bring it to 0: each cancels the low byte it meets. -/
theorem crc16_own_bytes (c : Crc) : crc16 c [c.extractLsb' 0 8, c.extractLsb' 8 8] = 0 := by
  have hhigh : c.extractLsb' 8 8 = (c >>> 8).extractLsb' 0 8 :=
    BitVec.eq_of_getLsbD_eq fun i _ => by simp
  rw [crc16_cons, crc16_cons, crc16_nil, crc16Step_low_byte, hhigh, crc16Step_low_byte]
  exact BitVec.eq_of_getLsbD_eq fun i _ => by simp

/-- Settles O41: (c) because a flipped bit changes its byte, and the step is injective in the byte and in the
register; (d) because the register takes in its own two bytes. -/
theorem crcLaws : Obligations.CrcLaws := by
  refine ⟨crc16_append, crc16_replicate_zero, ?_, ?_⟩
  · exact fun xs ys b k hk => crc16_ne_of_byte_ne 0 xs ys (flip_bit_ne b hk)
  · exact fun xs => (crc16_append 0 xs _).trans (crc16_own_bytes _)

/-! ### The table (R146) -/

theorem crcTableLow_eq : crcTableLow = (List.range' 0 128).map fun i => crc16Step 0 (BitVec.ofNat 8 i) := by
  decide +kernel

theorem crcTableHigh_eq : crcTableHigh = (List.range' 128 128).map fun i => crc16Step 0 (BitVec.ofNat 8 i) := by
  decide +kernel

theorem crcTable_eq : crcTable = (List.range 256).map fun i => crc16Step 0 (BitVec.ofNat 8 i) := by
  rw [crcTable, crcTableLow_eq, crcTableHigh_eq, ← List.map_append, List.range_eq_range',
    List.range'_append_1]

theorem crcTable_getElem? (i : Byte) : crcTable[i.toNat]? = some (crc16Step 0 i) := by
  simp [crcTable_eq, List.getElem?_range i.isLt]

/-- The index of the table form is the byte that `crc16Step_eq_shift_xor` names. -/
theorem tableIndex_eq (c : Crc) (b : Byte) :
    ((c ^^^ b.zeroExtend 16) &&& 0x00FF).toNat = (c.extractLsb' 0 8 ^^^ b).toNat := by
  have hbyte : b.toNat < 256 := b.isLt
  rw [BitVec.toNat_and, show (0x00FF : Crc).toNat = 2 ^ 8 - 1 from rfl, Nat.and_two_pow_sub_one_eq_mod]
  simp [Nat.xor_mod_two_pow (n := 8), hbyte]

theorem crc16Step_eq_table (c : Crc) (b : Byte) : crc16Step c b = crc16StepTable c b := by
  rw [crc16StepTable, tableIndex_eq, List.getD_eq_getElem?_getD, crcTable_getElem?, Option.getD_some,
    ← crc16Step_eq_shift_xor]

/-- Settles O40: the table by evaluating its two halves, the agreement by the split of the register into its two
bytes. -/
theorem crcTableForm : Obligations.CrcTableForm :=
  ⟨by rw [crcTable_eq, List.length_map, List.length_range], crcTable_getElem?, crc16Step_eq_table⟩

end Sys2Proof.Machine

/-!
PROOFS. What a step does with each action (70_reset_and_hazards.md R223), and the sticky error
(60_exceptions.md R204): a command answers the state it met, so that only LOAD and reset change CODE.
-/
namespace Sys2Proof.Machine

/-! ### A step, action by action (R223) -/

theorem step_of_pending_nil {s : State} (h : s.pending = []) : step s = .next s := by
  rw [step, takeAction, h]

theorem step_of_pending_cons {s : State} {a : Action} {rest : List Action} (h : s.pending = a :: rest) :
    step s = runAction a rest s := by
  rw [step, takeAction, h]

theorem runAction_reset (rest : List Action) (s : State) :
    runAction .reset rest s = .next (s.doReset.answered rest none) := rfl

theorem runAction_load_next_iff (bytes : List Byte) (rest : List Action) (s t : State) :
    runAction (.load bytes) rest s = .next t ↔
      bytes.length ≤ s.params.maxLen ∧ t = (s.load bytes).answered rest none := by
  rw [runAction]
  by_cases h : bytes.length > s.params.maxLen
  · simp [h]
  · simp [h, Nat.le_of_not_lt h, eq_comm]

theorem runAction_cmd_of_next {w : Word} {s t : State} (h : runWord w s = .next t) (rest : List Action) :
    runAction (.cmd w) rest s = .next (t.answered rest (some t.cmdResponse)) := by
  rw [runAction, h]

theorem runAction_regRead_next_iff (number : BitVec 8) (rest : List Action) (s t : State) :
    runAction (.regRead number) rest s = .next t ↔
      ∃ word, s.readRegister number = .ok word ∧ t = s.answered rest (some (.reg word)) := by
  rw [runAction]
  cases s.readRegister number with
  | ok word => simp [eq_comm]
  | error r => simp

/-! ### With an error latched (R204) -/

theorem exec_errored {s : State} (h : s.code ≠ 0) (i : Instr) : exec i s = .next s := by
  rw [exec_eq_command, command_errored h]

/-- The sticky test comes before the decoder's: it is the same for a word that does not decode (R205). -/
theorem runWord_errored {s : State} (h : s.code ≠ 0) (w : Word) : runWord w s = .next s := by
  cases hd : decode w with
  | ok i => rw [runWord_of_decode_ok hd, exec_errored h]
  | error e => exact runWord_illegal_errored hd h

theorem runAction_cmd_errored {s : State} (h : s.code ≠ 0) (w : Word) (rest : List Action) :
    runAction (.cmd w) rest s = .next (s.answered rest (some s.cmdResponse)) :=
  runAction_cmd_of_next (runWord_errored h w) rest

/-! ### The actions that change CODE (R204, R208) -/

/-- The actions that leave the error state: RESET and LOAD. -/
def ClearsError (a : Action) : Prop := a = .reset ∨ ∃ bytes, a = .load bytes

theorem runAction_code_of_clearsError {a : Action} (ha : ClearsError a) {rest : List Action} {s t : State}
    (h : runAction a rest s = .next t) : t.code = 0 := by
  obtain rfl | ⟨bytes, rfl⟩ := ha
  · rw [runAction_reset] at h
    cases h
    rw [State.answered_code, State.doReset_code]
  · obtain ⟨-, rfl⟩ := (runAction_load_next_iff ..).mp h
    rw [State.answered_code, State.load_code]

theorem runAction_code_or_clearsError {a : Action} {rest : List Action} {s t : State} (hs : s.code ≠ 0)
    (h : runAction a rest s = .next t) : t.code = s.code ∨ ClearsError a := by
  cases a with
  | reset => exact .inr (.inl rfl)
  | load bytes => exact .inr (.inr ⟨bytes, rfl⟩)
  | cmd w =>
    rw [runAction_cmd_errored hs] at h
    cases h
    exact .inl (State.answered_code ..)
  | regRead number =>
    obtain ⟨word, -, rfl⟩ := (runAction_regRead_next_iff ..).mp h
    exact .inl (State.answered_code ..)

/-- With an error latched, a step that changes CODE took an action that leaves the error state. -/
theorem step_code_change_clearsError {s t : State} (hs : s.code ≠ 0) (h : step s = .next t)
    (hne : t.code ≠ s.code) : ∃ a rest, s.pending = a :: rest ∧ ClearsError a := by
  cases hp : s.pending with
  | nil =>
    rw [step_of_pending_nil hp] at h
    cases h
    exact absurd rfl hne
  | cons a rest =>
    rw [step_of_pending_cons hp] at h
    exact ⟨a, rest, rfl, (runAction_code_or_clearsError hs h).resolve_left hne⟩

theorem step_code_of_clearsError {s t : State} {a : Action} {rest : List Action} (hp : s.pending = a :: rest)
    (ha : ClearsError a) (h : step s = .next t) : t.code = 0 :=
  runAction_code_of_clearsError ha (step_of_pending_cons hp ▸ h)

/-- Settles O11: commands by the sticky test, which precedes decoding and every body, and the changes of CODE
by the actions that leave the error state. -/
theorem errorIsSticky : Obligations.ErrorIsSticky := by
  intro s hs
  refine ⟨exec_errored hs, ?_, ?_, ?_⟩
  · intro w rest hp
    rw [step_of_pending_cons hp, runAction_cmd_errored hs]
    rfl
  · intro t h hne
    obtain ⟨a, rest, hp, rfl | ⟨bytes, rfl⟩⟩ := step_code_change_clearsError hs h hne
    · exact ⟨rest, .inl hp⟩
    · exact ⟨rest, .inr ⟨bytes, hp⟩⟩
  · rintro t rest (hp | ⟨bytes, hp⟩) h
    · exact step_code_of_clearsError hp (.inl rfl) h
    · exact step_code_of_clearsError hp (.inr ⟨bytes, rfl⟩) h

end Sys2Proof.Machine

/-!
PROOFS. The two directions of the encoding (30_encoding.md R70 to R75): the word of a well-formed command
decodes to it, and a word that decodes is the word of its command. The assembler (R77) only makes well-formed
commands.
-/
namespace Sys2Proof

/-! ### The round trip -/

/-- Only a read has the ADV flag (R71). -/
theorem opcodeIsRead_of_instrAdv {i : Instr} (h : instrAdv i = true) : opcodeIsRead (instrOpcode i) = true := by
  cases i
  case readU8 | readU16 | readU32 | readU64 | readI16 | readI32 => rfl
  all_goals cases h

/-- The constraint on IMM (R72) asks of a term what well-formedness does. -/
theorem immAllowed_instr (i : Instr) : immAllowed (instrOpcode i) (instrImm i) = i.wellFormed := by
  cases i <;> rfl

theorem decode_encode {i : Instr} (h : i.WellFormed) : decode (encode i) = .ok i := by
  rw [encode, decode_packWord _ opcodeIsRead_of_instrAdv ((immAllowed_instr i).trans h), instrOf_instr]

/-- Settles O1: the word's fields pass the decoder's tests and give the command back. -/
theorem decodeEncodeRoundTrip : Obligations.DecodeEncodeRoundTrip := fun _ => decode_encode

@[simp] theorem instrOpcode_instrOf (op : Opcode) (adv : Bool) (imm : Imm) :
    instrOpcode (instrOf op adv imm) = op := by
  cases op <;> rfl

theorem instrAdv_instrOf {op : Opcode} {adv : Bool} (h : adv = true → opcodeIsRead op = true) (imm : Imm) :
    instrAdv (instrOf op adv imm) = adv := by
  cases op
  case readU8 | readU16 | readU32 | readU64 | readI16 | readI32 => rfl
  all_goals
    cases adv with
    | false => rfl
    | true => cases h rfl

theorem instrImm_instrOf {op : Opcode} {imm : Imm} (h : immAllowed op imm = true) (adv : Bool) :
    instrImm (instrOf op adv imm) = imm := by
  cases op
  case takeSlice | crcByte | crcSpan => rfl
  all_goals exact (beq_iff_eq.mp h).symm

/-- The command that a well-formed word decodes to has the word's own fields (R70). -/
theorem WellFormedAs.instr_fields {w : Word} {op : Opcode} (h : WellFormedAs w op) :
    instrOpcode (instrOf op (wordAdv w) (wordImm w)) = op ∧
      instrAdv (instrOf op (wordAdv w) (wordImm w)) = wordAdv w ∧
      instrImm (instrOf op (wordAdv w) (wordImm w)) = wordImm w :=
  ⟨instrOpcode_instrOf .., instrAdv_instrOf h.advance _, instrImm_instrOf h.immediate _⟩

theorem WellFormedAs.encode_instrOf {w : Word} {op : Opcode} (h : WellFormedAs w op) :
    encode (instrOf op (wordAdv w) (wordImm w)) = w := by
  obtain ⟨hop, hadv, himm⟩ := h.instr_fields
  rw [encode, hop, hadv, himm, opcodeNumber_of_opcodeOf _ _ h.assigned, packWord_fields w h.reserved]

theorem WellFormedAs.wellFormed_instrOf {w : Word} {op : Opcode} (h : WellFormedAs w op) :
    (instrOf op (wordAdv w) (wordImm w)).WellFormed := by
  obtain ⟨hop, -, himm⟩ := h.instr_fields
  rw [Instr.WellFormed, ← immAllowed_instr, hop, himm, h.immediate]

theorem decode_ok_wellFormedAs {w : Word} {i : Instr} (h : decode w = .ok i) :
    ∃ op, WellFormedAs w op ∧ i = instrOf op (wordAdv w) (wordImm w) := by
  obtain ⟨op, hw⟩ | ⟨e, he⟩ := wellFormedAs_or_decode_error w
  · rw [hw.decode_eq] at h
    cases h
    exact ⟨op, hw, rfl⟩
  · rw [he] at h
    cases h

theorem encode_of_decode {w : Word} {i : Instr} (h : decode w = .ok i) : i.WellFormed ∧ encode i = w := by
  obtain ⟨op, hw, rfl⟩ := decode_ok_wellFormedAs h
  exact ⟨hw.wellFormed_instrOf, hw.encode_instrOf⟩

/-- Settles O2: a well-formed word is made of its fields, and its command has these fields. -/
theorem decodedWordIsItsEncoding : Obligations.DecodedWordIsItsEncoding := fun _ _ => encode_of_decode

end Sys2Proof

namespace Sys2Proof.Machine

/-! ### The assembler (R77) -/

theorem plainForms_wellFormed : ∀ f ∈ plainForms, f.2.WellFormed := by decide

theorem crcByte_wellFormed_of_le {n : Nat} (h : n ≤ 255) : (Instr.crcByte (BitVec.ofNat 16 n)).WellFormed := by
  rw [Instr.WellFormed, Instr.wellFormed, beq_iff_eq, upperByte_eq_zero_iff, BitVec.toNat_ofNat]
  omega

/-- Within a form's bound every command it stands for is well-formed: CRC_BYTE's bound is 255. -/
theorem numberForms_wellFormed {n : Nat} {f : String × Nat × List Instr} (hf : f ∈ numberForms n)
    (hn : n ≤ f.2.1) : ∀ i ∈ f.2.2, i.WellFormed := by
  simp only [numberForms, List.mem_cons, List.not_mem_nil, or_false] at hf
  obtain rfl | rfl | rfl | rfl | rfl := hf
  case inr.inl => simpa using crcByte_wellFormed_of_le hn
  all_goals simp [Instr.WellFormed, Instr.wellFormed]

theorem assembleWords_wellFormed {words : List (List Char)} {is : List Instr}
    (h : assembleWords words = some is) : ∀ i ∈ is, i.WellFormed := by
  unfold assembleWords at h
  split at h
  next => cases h; simp
  next m =>
    obtain ⟨f, hf, rfl⟩ := Option.map_eq_some_iff.mp h
    simpa using plainForms_wellFormed f (List.mem_of_find?_eq_some hf)
  next m x =>
    split at h
    next => cases h
    next n _ =>
      split at h
      next => cases h
      next hfind =>
        split at h
        next hle => cases h; exact numberForms_wellFormed (List.mem_of_find?_eq_some hfind) hle
        next => cases h
  next => cases h

/-- Settles O58: every command of a line is well-formed, so its word decodes to it. -/
theorem assembledWordsDecode : Obligations.AssembledWordsDecode := by
  intro line ws h w hw
  obtain ⟨is, his, rfl⟩ := Option.map_eq_some_iff.mp h
  obtain ⟨i, hi, rfl⟩ := List.mem_map.mp hw
  exact ⟨i, decode_encode (assembleWords_wellFormed his i hi)⟩

end Sys2Proof.Machine

/-!
PROOFS. What a command can do, said once as three relations: its effect (`Done`), the error it raises (`Raises`)
and the byte it misses (`Stops`). In every state one of the three holds; each statement about commands is read off
them.
-/
namespace Sys2Proof.Machine

/-! ### The bodies, as relations -/

/-- `i` reads `n` bytes, with the flag `advance` (40_cursor_reads.md R102 to R107). -/
inductive ReadForm : Instr → Nat → Signedness → Bool → Prop
  | u8 (advance : Bool) : ReadForm (.readU8 advance) 1 .unsigned advance
  | u16 (advance : Bool) : ReadForm (.readU16 advance) 2 .unsigned advance
  | u32 (advance : Bool) : ReadForm (.readU32 advance) 4 .unsigned advance
  | u64 (advance : Bool) : ReadForm (.readU64 advance) 8 .unsigned advance
  | i16 (advance : Bool) : ReadForm (.readI16 advance) 2 .signed advance
  | i32 (advance : Bool) : ReadForm (.readI32 advance) 4 .signed advance

theorem ReadForm.body {i : Instr} {n : Nat} {sign : Signedness} {advance : Bool}
    (h : ReadForm i n sign advance) : instrBody i = readBody n sign advance := by
  cases h <;> rfl

/-- The effect of a command that succeeds with no error latched: the next state it makes of `s`. -/
inductive Done (s : State) : Instr → State → Prop
  | read {i : Instr} {n : Nat} {sign : Signedness} {advance : Bool} {bytes : List Byte}
      (form : ReadForm i n sign advance) (enough : n ≤ s.avail) (held : s.buf.readBytes s.pos n = .ok bytes) :
      Done s i { s with
        result := readImage n sign bytes, rvalid := true
        pos := if advance then s.params.narrow (s.pos + n) else s.pos }
  | takeSlice {n : Imm} (enough : n.toNat ≤ s.avail) :
      Done s (.takeSlice n) { s with
        result := sliceDescriptor s.pos n, rvalid := true, pos := s.params.narrow (s.pos + n.toNat) }
  | remaining : Done s .remaining { s with result := BitVec.ofNat 64 s.avail, rvalid := true }
  | position : Done s .position { s with result := BitVec.ofNat 64 s.pos, rvalid := true }
  | snapshot (room : s.sp ≠ s.params.snapDepth) : Done s .snapshot { s with snap := s.snap ++ [s.pos] }
  | restore {below : List Nat} {top : Nat} (stack : s.snap = below ++ [top]) :
      Done s .restore { s with snap := below, pos := top }
  | crcInit : Done s .crcInit { s with crc := 0x0000 }
  | crcByte {imm : Imm} (upper : imm.extractLsb' 8 8 = 0) :
      Done s (.crcByte imm) { s with crc := crc16Step s.crc (immByte imm) }
  | crcSpan {start : Imm} {bytes : List Byte} (le : start.toNat ≤ s.pos)
      (held : s.buf.readBytes start.toNat (s.pos - start.toNat) = .ok bytes) :
      Done s (.crcSpan start) { s with crc := crc16 s.crc bytes }
  | crcRead : Done s .crcRead { s with result := s.crc.zeroExtend 64, rvalid := true }
  | crcCheck (valid : s.rvalid = true) (agrees : s.crc = s.result.extractLsb' 0 16) : Done s .crcCheck s

/-- The error a command raises with no error latched (60_exceptions.md R200, R205). -/
inductive Raises (s : State) : Instr → BlockError → Prop
  | read {i : Instr} {n : Nat} {sign : Signedness} {advance : Bool} (form : ReadForm i n sign advance)
      (short : s.avail < n) : Raises s i (.truncatedInput s.pos n s.avail)
  | takeSlice {n : Imm} (short : s.avail < n.toNat) :
      Raises s (.takeSlice n) (.truncatedInput s.pos n.toNat s.avail)
  | snapshot (full : s.sp = s.params.snapDepth) : Raises s .snapshot .snapshotOverflow
  | restore (empty : s.snap = []) : Raises s .restore .snapshotUnderflow
  | crcByte {imm : Imm} (upper : imm.extractLsb' 8 8 ≠ 0) : Raises s (.crcByte imm) .illegalCommand
  | crcSpan {start : Imm} (gt : s.pos < start.toNat) : Raises s (.crcSpan start) .illegalCommand
  | noResult (invalid : s.rvalid = false) : Raises s .crcCheck .noResult
  | crcMismatch (valid : s.rvalid = true) (differs : s.crc ≠ s.result.extractLsb' 0 16) :
      Raises s .crcCheck .crcMismatch

/-- The fault of a command that meets an offset with no byte (10_state.md R21). -/
inductive Stops (s : State) : Instr → Fault → Prop
  | read {i : Instr} {n : Nat} {sign : Signedness} {advance : Bool} {a : Nat}
      (form : ReadForm i n sign advance) (enough : n ≤ s.avail) (missing : s.buf.readBytes s.pos n = .error a) :
      Stops s i (.noByteAt a)
  | crcSpan {start : Imm} {a : Nat} (le : start.toNat ≤ s.pos)
      (missing : s.buf.readBytes start.toNat (s.pos - start.toNat) = .error a) :
      Stops s (.crcSpan start) (.noByteAt a)

theorem ReadForm.effect_cases {i : Instr} {n : Nat} {sign : Signedness} {advance : Bool}
    (form : ReadForm i n sign advance) (s : State) :
    (∃ t, Done s i t) ∨ (∃ e, Raises s i e) ∨ ∃ f, Stops s i f := by
  by_cases hshort : s.avail < n
  · exact .inr (.inl ⟨_, .read form hshort⟩)
  · have henough : n ≤ s.avail := Nat.le_of_not_lt hshort
    cases hb : s.buf.readBytes s.pos n with
    | ok bytes => exact .inl ⟨_, .read form henough hb⟩
    | error a => exact .inr (.inr ⟨_, .read form henough hb⟩)

/-- In every state a command has an effect, an error or a fault. -/
theorem effect_cases (i : Instr) (s : State) : (∃ t, Done s i t) ∨ (∃ e, Raises s i e) ∨ ∃ f, Stops s i f := by
  cases i with
  | readU8 advance => exact (ReadForm.u8 advance).effect_cases s
  | readU16 advance => exact (ReadForm.u16 advance).effect_cases s
  | readU32 advance => exact (ReadForm.u32 advance).effect_cases s
  | readU64 advance => exact (ReadForm.u64 advance).effect_cases s
  | readI16 advance => exact (ReadForm.i16 advance).effect_cases s
  | readI32 advance => exact (ReadForm.i32 advance).effect_cases s
  | takeSlice n =>
    obtain ⟨h, -⟩ | ⟨h, -⟩ := takeSliceBody_cases n s
    · exact .inr (.inl ⟨_, .takeSlice h⟩)
    · exact .inl ⟨_, .takeSlice h⟩
  | remaining => exact .inl ⟨_, .remaining⟩
  | position => exact .inl ⟨_, .position⟩
  | snapshot =>
    obtain ⟨h, -⟩ | ⟨h, -⟩ := snapshotBody_cases s
    · exact .inr (.inl ⟨_, .snapshot h⟩)
    · exact .inl ⟨_, .snapshot h⟩
  | restore =>
    obtain ⟨h, -⟩ | ⟨below, top, h, -⟩ := restoreBody_cases s
    · exact .inr (.inl ⟨_, .restore h⟩)
    · exact .inl ⟨_, .restore h⟩
  | crcInit => exact .inl ⟨_, .crcInit⟩
  | crcByte imm =>
    obtain ⟨h, -⟩ | ⟨h, -⟩ := crcByteBody_cases imm s
    · exact .inr (.inl ⟨_, .crcByte h⟩)
    · exact .inl ⟨_, .crcByte h⟩
  | crcSpan start =>
    obtain ⟨h, -⟩ | ⟨h, bytes, hr, -⟩ | ⟨h, a, hr, -⟩ := crcSpanBody_cases start s
    · exact .inr (.inl ⟨_, .crcSpan h⟩)
    · exact .inl ⟨_, .crcSpan h hr⟩
    · exact .inr (.inr ⟨_, .crcSpan h hr⟩)
  | crcRead => exact .inl ⟨_, .crcRead⟩
  | crcCheck =>
    obtain ⟨h, -⟩ | ⟨h, hne, -⟩ | ⟨h, heq, -⟩ := crcCheckBody_cases s
    · exact .inr (.inl ⟨_, .noResult h⟩)
    · exact .inr (.inl ⟨_, .crcMismatch h hne⟩)
    · exact .inl ⟨_, .crcCheck h heq⟩

theorem Done.body {s t : State} {i : Instr} (h : Done s i t) : instrBody i s = .done t := by
  cases h with
  | read form enough held => rw [form.body, readBody_of_bytes enough held]
  | takeSlice enough => exact if_neg (Nat.not_lt.mpr enough)
  | remaining | position | crcInit | crcRead => rfl
  | snapshot room => exact if_neg room
  | restore stack => simp [instrBody, restoreBody, stack]
  | crcByte upper => exact if_neg (not_not.mpr upper)
  | crcSpan le held => rw [instrBody, crcSpanBody, if_neg (Nat.not_lt.mpr le), held]
  | crcCheck valid agrees => simp [instrBody, crcCheckBody, valid, agrees]

theorem Raises.body {s : State} {i : Instr} {e : BlockError} (h : Raises s i e) : instrBody i s = .raised e := by
  cases h with
  | read form short => rw [form.body, readBody_truncated short]
  | takeSlice short => exact if_pos short
  | snapshot full => exact if_pos full
  | restore empty => simp [instrBody, restoreBody, empty]
  | crcByte upper => exact if_pos upper
  | crcSpan gt => exact if_pos gt
  | noResult invalid => exact if_pos invalid
  | crcMismatch valid differs => simp [instrBody, crcCheckBody, valid, differs]

theorem Stops.body {s : State} {i : Instr} {f : Fault} (h : Stops s i f) : instrBody i s = .stopped f := by
  cases h with
  | read form enough missing => rw [form.body, readBody, if_neg (Nat.not_lt.mpr enough), missing]
  | crcSpan le missing => rw [instrBody, crcSpanBody, if_neg (Nat.not_lt.mpr le), missing]

/-! ### Commands, by the relations (60_exceptions.md R203 to R205) -/

theorem exec_of_done {s t : State} {i : Instr} (hs : s.code = 0) (h : Done s i t) : exec i s = .next t := by
  rw [exec_eq_command, command_done hs h.body]

theorem exec_of_raises {s : State} {i : Instr} {e : BlockError} (hs : s.code = 0) (h : Raises s i e) :
    exec i s = .next (raise e (encode i) s) := by
  rw [exec_eq_command, command_raised hs h.body]

theorem exec_of_stops {s : State} {i : Instr} {f : Fault} (hs : s.code = 0) (h : Stops s i f) :
    exec i s = .fault f := by
  rw [exec_eq_command, command_stopped hs h.body]

/-- All that a command can do: nothing under a latched error, its effect, its error, or its fault. -/
theorem exec_cases (i : Instr) (s : State) :
    (s.code ≠ 0 ∧ exec i s = .next s) ∨ (s.code = 0 ∧ ∃ t, Done s i t ∧ exec i s = .next t) ∨
      (s.code = 0 ∧ ∃ e, Raises s i e ∧ exec i s = .next (raise e (encode i) s)) ∨
      (s.code = 0 ∧ ∃ f, Stops s i f ∧ exec i s = .fault f) := by
  by_cases hs : s.code = 0
  · obtain ⟨t, h⟩ | ⟨e, h⟩ | ⟨f, h⟩ := effect_cases i s
    · exact .inr (.inl ⟨hs, t, h, exec_of_done hs h⟩)
    · exact .inr (.inr (.inl ⟨hs, e, h, exec_of_raises hs h⟩))
    · exact .inr (.inr (.inr ⟨hs, f, h, exec_of_stops hs h⟩))
  · exact .inl ⟨hs, exec_errored hs i⟩

/-- All that a command which answers a next state can have done. -/
theorem exec_next {i : Instr} {s t : State} (h : exec i s = .next t) :
    (s.code ≠ 0 ∧ t = s) ∨ (s.code = 0 ∧ Done s i t) ∨
      ∃ e, s.code = 0 ∧ Raises s i e ∧ t = raise e (encode i) s := by
  obtain ⟨hs, heq⟩ | ⟨hs, u, hu, heq⟩ | ⟨hs, e, he, heq⟩ | ⟨hs, f, hf, heq⟩ := exec_cases i s <;>
    rw [heq] at h <;> cases h
  · exact .inl ⟨hs, rfl⟩
  · exact .inr (.inl ⟨hs, hu⟩)
  · exact .inr (.inr ⟨e, hs, he, rfl⟩)

/-- A command that answers a state with no error started with none and had its effect. -/
theorem done_of_exec_next {i : Instr} {s t : State} (h : exec i s = .next t) (ht : t.code = 0) :
    s.code = 0 ∧ Done s i t := by
  obtain ⟨hs, rfl⟩ | ⟨hs, hdone⟩ | ⟨e, hs, he, rfl⟩ := exec_next h
  · exact absurd ht hs
  · exact ⟨hs, hdone⟩
  · exact absurd ((raise_code ..).symm.trans ht) (errorCode_ne_zero e)

/-! ### What an effect leaves unchanged -/

/-- The registers that an effect may write; all else is kept (10_state.md R32). -/
theorem Done.frame {s t : State} {i : Instr} (h : Done s i t) :
    t = { s with pos := t.pos, snap := t.snap, result := t.result, rvalid := t.rvalid, crc := t.crc } := by
  cases h <;> rfl

theorem Done.code_eq {s t : State} {i : Instr} (h : Done s i t) : t.code = s.code := by
  rw [h.frame]

theorem Done.crc_eq {s t : State} {i : Instr} (h : Done s i t) (hi : updatesCrc i = false) : t.crc = s.crc := by
  cases h
  case crcInit | crcByte | crcSpan => cases hi
  all_goals rfl

theorem Done.snap_eq {s t : State} {i : Instr} (h : Done s i t) (hs : i ≠ .snapshot) (hr : i ≠ .restore) :
    t.snap = s.snap := by
  cases h
  case snapshot => exact absurd rfl hs
  case restore => exact absurd rfl hr
  all_goals rfl

theorem Done.result_eq {s t : State} {i : Instr} (h : Done s i t) (hi : producesValue i = false) :
    t.result = s.result ∧ t.rvalid = s.rvalid := by
  cases h with
  | read form => cases form <;> cases hi
  | takeSlice | remaining | position | crcRead => cases hi
  | snapshot | restore | crcInit | crcByte | crcSpan | crcCheck => exact ⟨rfl, rfl⟩

/-- A command keeps what its effect keeps and no error writes. -/
theorem exec_keeps {α : Type} {i : Instr} {s t : State} (f : State → α) (h : exec i s = .next t)
    (hdone : Done s i t → f t = f s) (hraise : ∀ e w, f (raise e w s) = f s) : f t = f s := by
  obtain ⟨-, rfl⟩ | ⟨-, hd⟩ | ⟨e, -, -, rfl⟩ := exec_next h
  · rfl
  · exact hdone hd
  · exact hraise e _

/-- What no command writes: the buffer, LEN, and the model's own fields (10_state.md R21, R22). -/
def State.fixedPart (s : State) : Memory × Nat × Params × List Action × Option Response :=
  (s.buf, s.len, s.params, s.pending, s.response)

theorem State.fixedPart_eq_iff (s t : State) :
    t.fixedPart = s.fixedPart ↔
      t.buf = s.buf ∧ t.len = s.len ∧ t.params = s.params ∧ t.pending = s.pending ∧ t.response = s.response := by
  simp [State.fixedPart]

theorem Done.fixedPart_eq {s t : State} {i : Instr} (h : Done s i t) : t.fixedPart = s.fixedPart := by
  rw [h.frame]
  rfl

theorem raise_fixedPart (e : BlockError) (w : Word) (s : State) : (raise e w s).fixedPart = s.fixedPart := by
  rw [raise_eq]
  rfl

theorem exec_fixedPart {i : Instr} {s t : State} (h : exec i s = .next t) : t.fixedPart = s.fixedPart :=
  exec_keeps _ h (fun hd => hd.fixedPart_eq) fun e w => raise_fixedPart e w s

/-- Settles O49: an effect and an error both keep the buffer, LEN and the model's own fields. -/
theorem commandsNeverWriteBuffer : Obligations.CommandsNeverWriteBuffer := by
  intro i s t h
  obtain ⟨hbuf, hrest⟩ := (State.fixedPart_eq_iff s t).mp (exec_fixedPart h)
  exact ⟨fun a => by rw [hbuf], hrest⟩

/-- Settles O13: an effect keeps the error registers, and an error changes CODE from 0. -/
theorem errorRegistersKeptWithoutError : Obligations.ErrorRegistersKeptWithoutError := by
  intro i s t h hcode
  obtain ⟨-, rfl⟩ | ⟨-, hd⟩ | ⟨e, hs, -, rfl⟩ := exec_next h
  · exact ⟨rfl, rfl, rfl, rfl⟩
  · rw [hd.frame]
    exact ⟨rfl, rfl, rfl, rfl⟩
  · rw [raise_code, hs] at hcode
    exact absurd hcode (errorCode_ne_zero e)

/-! ### The results of the commands, by their effects and errors -/

/-- Settles O27: the effect of POSITION. -/
theorem positionResult : Obligations.PositionResult := fun _ hs => exec_of_done hs .position

/-- Settles O26: the effect of REMAINING. -/
theorem remainingResult : Obligations.RemainingResult := fun _ hs _ => exec_of_done hs .remaining

/-- Settles O32: the effect of CRC_INIT. -/
theorem crcInitResult : Obligations.CrcInitResult := fun _ hs => exec_of_done hs .crcInit

/-- Settles O37: the effect of CRC_READ. -/
theorem crcReadResult : Obligations.CrcReadResult := fun _ hs => exec_of_done hs .crcRead

/-- An error that records only its command: what `raise` makes of the state, written out (R203). -/
theorem exec_of_raises_plain {s : State} {i : Instr} {e : BlockError} {w : Word} (hs : s.code = 0)
    (h : Raises s i e) (hw : encode i = w) (he : errorCode e ≠ 1) :
    exec i s =
      .next { s with code := errorCode e, errOffset := 0, errNeeded := 0, errAvail := 0, errCmd := w } := by
  obtain ⟨hoffset, hneeded, havail⟩ := errorInfo_zero e he
  rw [exec_of_raises hs h, raise_eq, hoffset, hneeded, havail, hw]

/-- Settles O28: a stack that is not full has room, and a full one raises. -/
theorem snapshotResult : Obligations.SnapshotResult := fun _ hs =>
  ⟨fun hroom => exec_of_done hs (.snapshot (Nat.ne_of_lt hroom)),
    fun hfull => exec_of_raises_plain hs (.snapshot hfull) rfl (by decide)⟩

/-- Settles O29: a stack with a top pops it, and an empty one raises. -/
theorem restoreResult : Obligations.RestoreResult := fun _ hs =>
  ⟨fun _ _ hstack => exec_of_done hs (.restore hstack),
    fun hempty => exec_of_raises_plain hs (.restore hempty) rfl (by decide)⟩

theorem immByte_zeroExtend (b : Byte) : immByte (b.zeroExtend 16) = b := by
  refine BitVec.eq_of_getLsbD_eq fun i hi => ?_
  simp [immByte, hi, show i < 16 by omega]

theorem done_crcByte (s : State) (b : Byte) :
    Done s (.crcByte (b.zeroExtend 16)) { s with crc := crc16Step s.crc b } := by
  have hupper : (b.zeroExtend 16).extractLsb' 8 8 = 0 := beq_iff_eq.mp (immAllowed_crcByte_zeroExtend b)
  simpa only [immByte_zeroExtend] using Done.crcByte (s := s) hupper

/-- Settles O33: the immediate is a byte, so its upper half is 0 and its lower half the byte. -/
theorem crcByteResult : Obligations.CrcByteResult := fun s b hs => exec_of_done hs (done_crcByte s b)

/-- Settles O34: an immediate of 256 or more has an upper byte that is not 0. -/
theorem crcByteUpperByteIllegal : Obligations.CrcByteUpperByteIllegal := by
  intro s imm hs himm
  have hupper : imm.extractLsb' 8 8 ≠ 0 := fun h => by
    rw [upperByte_eq_zero_iff] at h
    omega
  exact exec_of_raises_plain hs (.crcByte hupper) (packWord_eq_append imm false 0x11) (by decide)

/-- Settles O36: the start is beyond POS. -/
theorem crcSpanBeyondPosIllegal : Obligations.CrcSpanBeyondPosIllegal := fun _ start hs hgt =>
  exec_of_raises_plain hs (.crcSpan hgt) (packWord_eq_append start false 0x12) (by decide)

/-- A range whose bytes are the given ones is read as their list. -/
theorem Memory.readBytes_eq_ok {m : Memory} {a : Nat} {bytes : List Byte}
    (h : ∀ k, k < bytes.length → m.read (a + k) = bytes[k]?) : m.readBytes a bytes.length = .ok bytes := by
  obtain ⟨bs, hbs⟩ := m.readBytes_isOk bytes.length a fun k hk => by rw [h k hk]; simp [hk]
  obtain ⟨hlen, hget⟩ := m.readBytes_ok _ a bs hbs
  have heq : bs = bytes := List.ext_getElem? fun k => by
    by_cases hk : k < bytes.length
    · rw [← hget k hk, h k hk]
    · rw [List.getElem?_eq_none (by omega), List.getElem?_eq_none (by omega)]
  rw [hbs, heq]

theorem done_crcSpan {s : State} {start : Imm} {bytes : List Byte} (hpos : start.toNat + bytes.length = s.pos)
    (hheld : ∀ k, k < bytes.length → s.buf.read (start.toNat + k) = bytes[k]?) :
    Done s (.crcSpan start) { s with crc := crc16 s.crc bytes } := by
  refine .crcSpan (by omega) ?_
  rw [show s.pos - start.toNat = bytes.length by omega]
  exact Memory.readBytes_eq_ok hheld

/-- Settles O35: the span is the list, and CRC_SPAN folds it in. -/
theorem crcSpanResult : Obligations.CrcSpanResult := fun _ _ _ hs hpos hheld =>
  exec_of_done hs (done_crcSpan hpos hheld)

/-- CRC_BYTE of each byte of a list is the CRC of the list (42_crc.md R148 (a)). -/
theorem execsTo_crcBytes (bytes : List Byte) (s : State) (hs : s.code = 0) :
    ExecsTo (bytes.map fun b => .crcByte (b.zeroExtend 16)) s { s with crc := crc16 s.crc bytes } := by
  induction bytes generalizing s with
  | nil => rfl
  | cons b bs ih => exact ⟨_, crcByteResult s b hs, ih { s with crc := crc16Step s.crc b } hs⟩

/-- Settles O39: both are the CRC of the list. -/
theorem crcSpanIsCrcBytes : Obligations.CrcSpanIsCrcBytes := by
  intro s t start bytes hs hpos hheld h
  rw [crcSpanResult s start bytes hs hpos hheld] at h
  cases h
  exact execsTo_crcBytes bytes s hs

/-- Settles O38: the three outcomes of CRC_CHECK, in the order of R205. -/
theorem crcCheckResult : Obligations.CrcCheckResult := by
  intro s hs
  split_ifs with hinvalid hagrees
  · exact exec_of_raises_plain hs (.noResult hinvalid) rfl (by decide)
  · exact exec_of_done hs (.crcCheck (by simpa using hinvalid) hagrees.symm)
  · exact exec_of_raises_plain hs (.crcMismatch (by simpa using hinvalid) (Ne.symm hagrees)) rfl (by decide)

/-- Settles O42, by evaluation. -/
theorem crcCheckValue : Obligations.CrcCheckValue := by
  unfold Obligations.CrcCheckValue
  decide +kernel

/-! ### TAKE_SLICE (41_cursor_control.md R120) -/

/-- Settles O24: the new position is at most LEN, which fits the register. -/
theorem takeSliceResult : Obligations.TakeSliceResult := by
  intro s n hs hlen hn
  have henough : n.toNat ≤ s.avail := by rw [State.avail_eq]; omega
  have hfits : s.params.narrow (s.pos + n.toNat) = s.pos + n.toNat :=
    s.params.narrow_of_lt _ (by omega)
  rw [exec_of_done hs (.takeSlice henough), hfits]
  rfl

/-- Settles O25: too few bytes are left. -/
theorem takeSliceTruncates : Obligations.TakeSliceTruncates := by
  intro s n hs hpos hlt
  have hshort : s.avail < n.toNat := by rw [State.avail_eq]; omega
  rw [exec_of_raises hs (.takeSlice hshort), raise_eq]
  simp only [errorCode, errorOffset, errorNeeded, errorAvail, BitVec.ofNat_toNat, BitVec.setWidth_eq,
    State.avail_eq]

end Sys2Proof.Machine

/-!
PROOFS. The reads that succeed (40_cursor_reads.md R101 to R107): one rule for all six, and the images of the
big-endian values as joined bytes.
-/
namespace Sys2Proof.Machine

/-! ### Joined bytes (00_scope.md R10) -/

/-- A byte joined at the low end of a word. -/
theorem toNat_append_byte {n : Nat} (x : BitVec n) (b : Byte) : (x ++ b).toNat = x.toNat * 256 + b.toNat := by
  rw [BitVec.toNat_append, ← Nat.shiftLeft_add_eq_or_of_lt b.isLt, Nat.shiftLeft_eq]

/-- An unsigned read's image, where its value is that of the word `x`. -/
theorem readImage_unsigned_word {w n : Nat} {bytes : List Byte} (x : BitVec n) (hx : bigEndian bytes = x.toNat) :
    readImage w .unsigned bytes = x.zeroExtend 64 := by
  rw [readImage_unsigned, hx, BitVec.ofNat_toNat]

/-- A signed read's image, where its value is that of the word `x`. -/
theorem readImage_signed_word {w : Nat} {bytes : List Byte} (x : BitVec (8 * w)) (hw : 0 < w)
    (hlen : bytes.length = w) (hx : bigEndian bytes = x.toNat) :
    readImage w .signed bytes = x.signExtend 64 := by
  rw [readImage_signed w bytes hw hlen, hx, BitVec.ofNat_toNat, BitVec.setWidth_eq]

/-! ### A read that succeeds (40_cursor_reads.md R101) -/

theorem Memory.readBytes_cons {m : Memory} {a n : Nat} {b : Byte} {bs : List Byte} (hb : m.read a = some b)
    (hbs : m.readBytes (a + 1) n = .ok bs) : m.readBytes a (n + 1) = .ok (b :: bs) :=
  (m.readBytes_succ_ok_iff a n _).mpr ⟨b, bs, hb, hbs, rfl⟩

/-- Within LEN the new position fits the register. -/
theorem exec_read {i : Instr} {s : State} {n : Nat} {sign : Signedness} {advance : Bool} {bytes : List Byte}
    (form : ReadForm i n sign advance) (hs : s.code = 0) (hlen : s.len < 2 ^ s.params.addrW)
    (hn : s.pos + n ≤ s.len) (held : s.buf.readBytes s.pos n = .ok bytes) :
    exec i s =
      .next { s with
        result := readImage n sign bytes, rvalid := true, pos := if advance then s.pos + n else s.pos } := by
  have henough : n ≤ s.avail := by rw [State.avail_eq]; omega
  rw [exec_of_done hs (.read form henough held), s.params.narrow_of_lt _ (by omega)]

/-- Settles O15: one byte is its own big-endian value. -/
theorem readU8Result : Obligations.ReadU8Result := by
  intro s adv b0 hs hlen hn h0
  rw [exec_read (.u8 adv) hs hlen hn (Memory.readBytes_cons h0 rfl), readImage_unsigned_word b0]
  simp [bigEndian]

/-- Settles O16: two bytes joined. -/
theorem readU16Result : Obligations.ReadU16Result := by
  intro s adv b0 b1 hs hlen hn h0 h1
  rw [exec_read (.u16 adv) hs hlen hn (Memory.readBytes_cons h0 (Memory.readBytes_cons h1 rfl)),
    readImage_unsigned_word (b0 ++ b1)]
  simp [bigEndian, toNat_append_byte]

/-- Four bytes held at POS, read as one range. -/
theorem readBytes_four {m : Memory} {a : Nat} {b0 b1 b2 b3 : Byte} (h0 : m.read a = some b0)
    (h1 : m.read (a + 1) = some b1) (h2 : m.read (a + 2) = some b2) (h3 : m.read (a + 3) = some b3) :
    m.readBytes a 4 = .ok [b0, b1, b2, b3] :=
  Memory.readBytes_cons h0 <| Memory.readBytes_cons h1 <| Memory.readBytes_cons h2 <|
    Memory.readBytes_cons h3 rfl

theorem bigEndian_four (b0 b1 b2 b3 : Byte) : bigEndian [b0, b1, b2, b3] = (b0 ++ b1 ++ b2 ++ b3).toNat := by
  simp [bigEndian, toNat_append_byte]

/-- Settles O17: four bytes joined. -/
theorem readU32Result : Obligations.ReadU32Result := by
  intro s adv b0 b1 b2 b3 hs hlen hn h0 h1 h2 h3
  rw [exec_read (.u32 adv) hs hlen hn (readBytes_four h0 h1 h2 h3),
    readImage_unsigned_word _ (bigEndian_four b0 b1 b2 b3)]

/-- Settles O18: eight bytes fill RESULT. -/
theorem readU64Result : Obligations.ReadU64Result := by
  intro s adv b0 b1 b2 b3 b4 b5 b6 b7 hs hlen hn h0 h1 h2 h3 h4 h5 h6 h7
  have held : s.buf.readBytes s.pos 8 = .ok [b0, b1, b2, b3, b4, b5, b6, b7] :=
    Memory.readBytes_cons h0 <| Memory.readBytes_cons h1 <| Memory.readBytes_cons h2 <|
      Memory.readBytes_cons h3 (readBytes_four h4 h5 h6 h7)
  have himage : readImage 8 .unsigned [b0, b1, b2, b3, b4, b5, b6, b7] =
      b0 ++ b1 ++ b2 ++ b3 ++ b4 ++ b5 ++ b6 ++ b7 := by
    rw [readImage_unsigned_word (b0 ++ b1 ++ b2 ++ b3 ++ b4 ++ b5 ++ b6 ++ b7)]
    · exact BitVec.setWidth_eq _
    · simp [bigEndian, toNat_append_byte]
  rw [exec_read (.u64 adv) hs hlen hn held, himage]

/-- Settles O19: two bytes joined, as a signed word. -/
theorem readI16Result : Obligations.ReadI16Result := by
  intro s adv b0 b1 hs hlen hn h0 h1
  rw [exec_read (.i16 adv) hs hlen hn (Memory.readBytes_cons h0 (Memory.readBytes_cons h1 rfl)),
    readImage_signed_word (w := 2) (b0 ++ b1) (by decide) rfl]
  simp [bigEndian, toNat_append_byte]

/-- Settles O20: four bytes joined, as a signed word. -/
theorem readI32Result : Obligations.ReadI32Result := by
  intro s adv b0 b1 b2 b3 hs hlen hn h0 h1 h2 h3
  rw [exec_read (.i32 adv) hs hlen hn (readBytes_four h0 h1 h2 h3),
    readImage_signed_word (w := 4) _ (by decide) rfl (bigEndian_four b0 b1 b2 b3)]

/-! ### Peeks (20_memory.md R52, R56) -/

theorem ReadForm.done_inv {i : Instr} {s t : State} {n : Nat} {sign : Signedness} {advance : Bool}
    (form : ReadForm i n sign advance) (h : Done s i t) :
    n ≤ s.avail ∧ ∃ bytes, s.buf.readBytes s.pos n = .ok bytes ∧
      t = { s with
            result := readImage n sign bytes, rvalid := true
            pos := if advance then s.params.narrow (s.pos + n) else s.pos } := by
  refine readBody_done ?_
  rw [← form.body]
  exact h.body

/-- A peek leaves what it reads as it was, so it finds it again; an error it raises is sticky. -/
theorem exec_peek_again {i : Instr} {s t : State} {n : Nat} {sign : Signedness} (form : ReadForm i n sign false)
    (h : exec i s = .next t) : exec i t = .next t := by
  obtain ⟨-, rfl⟩ | ⟨hs, hd⟩ | ⟨e, -, -, rfl⟩ := exec_next h
  · exact h
  · obtain ⟨henough, bytes, held, rfl⟩ := form.done_inv hd
    exact exec_of_done hs (.read form henough held)
  · exact exec_errored (by rw [raise_code]; exact errorCode_ne_zero e) i

/-- Settles O22: each of the six forms is a read that does not advance. -/
theorem peekTwiceIsPeekOnce : Obligations.PeekTwiceIsPeekOnce := by
  intro s t i hi h
  have hform : ∃ n sign, ReadForm i n sign false := by
    simp only [List.mem_cons, List.not_mem_nil, or_false] at hi
    obtain rfl | rfl | rfl | rfl | rfl | rfl := hi
    · exact ⟨_, _, .u8 false⟩
    · exact ⟨_, _, .u16 false⟩
    · exact ⟨_, _, .u32 false⟩
    · exact ⟨_, _, .u64 false⟩
    · exact ⟨_, _, .i16 false⟩
    · exact ⟨_, _, .i32 false⟩
  obtain ⟨n, sign, form⟩ := hform
  exact exec_peek_again form h

/-- The four bytes that a 4-byte read at `a` meets. -/
theorem readBytes_four_inv {m : Memory} {a : Nat} {bytes : List Byte} (h : m.readBytes a 4 = .ok bytes) :
    ∃ b0 b1 b2 b3, m.read a = some b0 ∧ m.read (a + 1) = some b1 ∧ m.read (a + 2) = some b2 ∧
      m.read (a + 3) = some b3 := by
  obtain ⟨b0, _, h0, h, -⟩ := (m.readBytes_succ_ok_iff ..).mp h
  obtain ⟨b1, _, h1, h, -⟩ := (m.readBytes_succ_ok_iff ..).mp h
  obtain ⟨b2, _, h2, h, -⟩ := (m.readBytes_succ_ok_iff ..).mp h
  obtain ⟨b3, _, h3, -, -⟩ := (m.readBytes_succ_ok_iff ..).mp h
  exact ⟨b0, b1, b2, b3, h0, h1, h2, h3⟩

theorem extractLsb'_zeroExtend (x : BitVec 16) : (x.zeroExtend 64).extractLsb' 0 16 = x := by
  refine BitVec.eq_of_getLsbD_eq fun i hi => ?_
  simp [hi, show i < 64 by omega]

/-- Settles O23: all three reads meet the same four bytes. -/
theorem mixedWidthReadsAgree : Obligations.MixedWidthReadsAgree := by
  intro s t hs hlen h ht
  obtain ⟨-, hd⟩ := done_of_exec_next h ht
  obtain ⟨henough, bytes, held, -⟩ := (ReadForm.u32 false).done_inv hd
  obtain ⟨b0, b1, b2, b3, h0, h1, h2, h3⟩ := readBytes_four_inv held
  have hn : s.pos + 4 ≤ s.len := by rw [State.avail_eq] at henough; omega
  rw [readU32Result s false b0 b1 b2 b3 hs hlen hn h0 h1 h2 h3] at h
  cases h
  refine ⟨_, _, readU16Result s true b0 b1 hs hlen (by omega) h0 h1,
    readU16Result _ true b2 b3 hs hlen hn h2 h3, hs, hs, ?_⟩
  rw [extractLsb'_zeroExtend, extractLsb'_zeroExtend, BitVec.append_assoc]
  rfl

end Sys2Proof.Machine

/-!
PROOFS. What the block does with a word and in a step, said once each: the error a word raises (`WordRaises`) and
the next states of a step (`Stepped`). The statements about errors (60_exceptions.md) and about who writes which
register (10_state.md) are read off them.
-/
namespace Sys2Proof.Machine

/-! ### Command words (30_encoding.md R74, 60_exceptions.md R201) -/

/-- The error a command word raises with no error latched. -/
inductive WordRaises (s : State) (w : Word) : BlockError → Prop
  | command {i : Instr} {e : BlockError} (decoded : decode w = .ok i) (raises : Raises s i e) : WordRaises s w e
  | illFormed {d : DecodeError} (rejected : decode w = .error d) : WordRaises s w .illegalCommand

theorem runWord_of_wordRaises {s : State} {w : Word} {e : BlockError} (hs : s.code = 0) (h : WordRaises s w e) :
    runWord w s = .next (raise e w s) := by
  cases h with
  | command decoded raises =>
    rw [runWord_of_decode_ok decoded, exec_of_raises hs raises, (encode_of_decode decoded).2]
  | illFormed rejected => rw [runWord_of_decode_error rejected, command_raised hs rfl]

/-- All that a word which is taken can have done. -/
theorem runWord_next {w : Word} {s t : State} (h : runWord w s = .next t) :
    (s.code ≠ 0 ∧ t = s) ∨ (s.code = 0 ∧ ∃ i, decode w = .ok i ∧ Done s i t) ∨
      ∃ e, s.code = 0 ∧ WordRaises s w e ∧ t = raise e w s := by
  cases hw : decode w with
  | ok i =>
    rw [runWord_of_decode_ok hw] at h
    obtain herr | ⟨hs, hd⟩ | ⟨e, hs, hr, rfl⟩ := exec_next h
    · exact .inl herr
    · exact .inr (.inl ⟨hs, i, rfl, hd⟩)
    · rw [(encode_of_decode hw).2]
      exact .inr (.inr ⟨e, hs, .command hw hr, rfl⟩)
  | error d =>
    by_cases hs : s.code = 0
    · rw [runWord_of_wordRaises hs (.illFormed hw)] at h
      cases h
      exact .inr (.inr ⟨_, hs, .illFormed hw, rfl⟩)
    · rw [runWord_errored hs] at h
      cases h
      exact .inl ⟨hs, rfl⟩

theorem runWord_fixedPart {w : Word} {s t : State} (h : runWord w s = .next t) : t.fixedPart = s.fixedPart := by
  obtain ⟨-, rfl⟩ | ⟨-, i, -, hd⟩ | ⟨e, -, -, rfl⟩ := runWord_next h
  · rfl
  · exact hd.fixedPart_eq
  · exact raise_fixedPart ..

theorem ReadForm.width_le {i : Instr} {n : Nat} {sign : Signedness} {advance : Bool}
    (h : ReadForm i n sign advance) : n ≤ 8 := by
  cases h <;> decide

/-- TruncatedInput is raised for more bytes than are left, by a width or an immediate (R200). -/
theorem Raises.truncated {s : State} {i : Instr} {e : BlockError} (h : Raises s i e) (he : errorCode e = 1) :
    ∃ n, s.avail < n ∧ n < 65536 ∧ e = .truncatedInput s.pos n s.avail := by
  cases h with
  | read form short => exact ⟨_, short, by have := form.width_le; omega, rfl⟩
  | @takeSlice n short => exact ⟨_, short, n.isLt, rfl⟩
  | snapshot | restore | crcByte | crcSpan | noResult | crcMismatch => cases he

theorem WordRaises.truncated {s : State} {w : Word} {e : BlockError} (h : WordRaises s w e)
    (he : errorCode e = 1) : ∃ n, s.avail < n ∧ n < 65536 ∧ e = .truncatedInput s.pos n s.avail := by
  cases h with
  | command decoded raises => exact raises.truncated he
  | illFormed => cases he

/-- Settles O12: with no error before, CODE is not 0 only where the word raised, and `raise` says the rest. -/
theorem errorIsPrecise : Obligations.ErrorIsPrecise := by
  intro w s t hs h ht
  obtain ⟨hne, -⟩ | ⟨-, i, -, hd⟩ | ⟨e, -, hr, rfl⟩ := runWord_next h
  · exact absurd hs hne
  · exact absurd (hd.code_eq.trans hs) ht
  · simp only [raise_code, raise_errOffset, raise_errNeeded, raise_errAvail]
    refine ⟨raise_eq .., errorCode_le e, fun he => ?_, errorInfo_zero e⟩
    obtain ⟨n, hshort, hn, rfl⟩ := hr.truncated he
    simp only [errorOffset, errorNeeded, errorAvail, BitVec.toNat_ofNat, State.avail_eq] at hshort ⊢
    rw [Nat.mod_eq_of_lt (a := n) (by omega), Nat.mod_eq_of_lt (by omega)]
    exact ⟨trivial, rfl, hshort⟩

/-! ### Steps (70_reset_and_hazards.md R223) -/

/-- The next states of a step: idle, or one for each action. -/
inductive Stepped (s : State) : State → Prop
  | idle (none : s.pending = []) : Stepped s s
  | reset {rest : List Action} (asked : s.pending = .reset :: rest) : Stepped s (s.doReset.answered rest none)
  | load {bytes : List Byte} {rest : List Action} (asked : s.pending = .load bytes :: rest)
      (fits : bytes.length ≤ s.params.maxLen) : Stepped s ((s.load bytes).answered rest none)
  | cmd {w : Word} {rest : List Action} {t : State} (asked : s.pending = .cmd w :: rest)
      (ran : runWord w s = .next t) : Stepped s (t.answered rest (some t.cmdResponse))
  | regRead {number : BitVec 8} {rest : List Action} {word : Word} (asked : s.pending = .regRead number :: rest)
      (value : s.readRegister number = .ok word) : Stepped s (s.answered rest (some (.reg word)))

theorem runAction_cmd_next_iff (w : Word) (rest : List Action) (s t : State) :
    runAction (.cmd w) rest s = .next t ↔
      ∃ u, runWord w s = .next u ∧ t = u.answered rest (some u.cmdResponse) := by
  rw [runAction]
  cases runWord w s <;> simp [eq_comm]

theorem stepped_of_step {s t : State} (h : step s = .next t) : Stepped s t := by
  cases hp : s.pending with
  | nil =>
    rw [step_of_pending_nil hp] at h
    cases h
    exact .idle hp
  | cons a rest =>
    rw [step_of_pending_cons hp] at h
    cases a with
    | reset =>
      rw [runAction_reset] at h
      cases h
      exact .reset hp
    | load bytes =>
      obtain ⟨hfits, rfl⟩ := (runAction_load_next_iff ..).mp h
      exact .load hp hfits
    | cmd w =>
      obtain ⟨u, hu, rfl⟩ := (runAction_cmd_next_iff ..).mp h
      exact .cmd hp hu
    | regRead number =>
      obtain ⟨word, hword, rfl⟩ := (runAction_regRead_next_iff ..).mp h
      exact .regRead hp hword

theorem step_load {s : State} {bytes : List Byte} {rest : List Action} (hp : s.pending = .load bytes :: rest)
    (hfits : bytes.length ≤ s.params.maxLen) : step s = .next ((s.load bytes).answered rest none) := by
  rw [step_of_pending_cons hp]
  exact (runAction_load_next_iff ..).mpr ⟨hfits, rfl⟩

theorem step_cmd {s t : State} {w : Word} {rest : List Action} (hp : s.pending = .cmd w :: rest)
    (h : runWord w s = .next t) : step s = .next (t.answered rest (some t.cmdResponse)) := by
  rw [step_of_pending_cons hp, runAction_cmd_of_next h]

theorem step_regRead {s : State} {number : BitVec 8} {rest : List Action} {word : Word}
    (hp : s.pending = .regRead number :: rest) (h : s.registerValue number.toNat = some word) :
    step s = .next (s.answered rest (some (.reg word))) := by
  rw [step_of_pending_cons hp]
  exact (runAction_regRead_next_iff ..).mpr ⟨word, (s.readRegister_ok_iff ..).mpr h, rfl⟩

theorem step_regRead_refused {s : State} {number : BitVec 8} {rest : List Action}
    (hp : s.pending = .regRead number :: rest) (h : s.registerValue number.toNat = none) :
    step s = .refused (.registerHasNoValue number) := by
  rw [step_of_pending_cons hp, runAction, (s.readRegister_error_iff number _).mpr ⟨h, rfl⟩]

/-- Settles O6: the word is decoded and run, and the three outcomes are the step's. -/
theorem stepRunsDecodedCommand : Obligations.StepRunsDecodedCommand := by
  intro s w rest i hp hw
  rw [step_of_pending_cons hp, runAction, runWord_of_decode_ok hw]
  cases exec i s <;> rfl

/-- Settles O7: the idle step. -/
theorem idleStepKeepsState : Obligations.IdleStepKeepsState := fun _ => step_of_pending_nil

/-! ### LOAD and reset (70_reset_and_hazards.md R220, R222) -/

/-- Settles O10: LEN is the number of bytes, which fits its register, and the rest is the loaded state's. -/
theorem loadAction : Obligations.LoadAction := by
  intro s bytes rest hlegal hp
  constructor
  · intro hfits
    have hlen : s.params.narrow bytes.length = bytes.length :=
      s.params.narrow_of_lt _ (hlegal.lt_of_le_maxLen hfits)
    refine ⟨_, step_load hp hfits, fun k => ?_, hlen, rfl, rfl, rfl, rfl, rfl, rfl, rfl, rfl, rfl, rfl, rfl, rfl⟩
    simpa using Memory.read_ofBytes bytes 0 k
  · intro hlong
    rw [step_of_pending_cons hp, runAction, if_pos hlong]

/-- The block of R34 is the state after reset, whatever stands beside it. -/
theorem afterReset_of_toBlock {t : State} (h : t.toBlock = Block.reset) : AfterReset t := by
  obtain ⟨_, params, pending, response⟩ := t
  cases h
  refine ⟨⟨rfl, rfl, rfl⟩, rfl, State.status_eq_zero rfl rfl, ⟨rfl, rfl, rfl, rfl⟩, rfl, Memory.read_nil, ?_, ?_⟩
  · intro adv p hp
    have hwidth : 0 < p.2 := by
      simp only [List.mem_cons, List.not_mem_nil, or_false] at hp
      obtain rfl | rfl | rfl | rfl | rfl | rfl := hp <;> exact Nat.succ_pos _
    exact readTruncates _ adv rfl (Nat.le_refl 0) p hp hwidth
  · intro n hn
    exact takeSliceTruncates _ n rfl (Nat.le_refl 0) (by simpa [Block.reset] using hn)

/-- Settles O9: power-up and the RESET action make the same block. -/
theorem resetActionAndAfter : Obligations.ResetActionAndAfter := by
  refine ⟨afterReset_of_toBlock rfl, fun s rest hp => ?_⟩
  refine ⟨s.doReset.answered rest none, ?_, afterReset_of_toBlock rfl, rfl, rfl, rfl⟩
  rw [step_of_pending_cons hp, runAction_reset]

/-- A step that takes a LOAD or a RESET makes the state of the one or of the other. -/
theorem step_of_clearsError {s t : State} {rest : List Action}
    (hp : s.pending = .reset :: rest ∨ ∃ bytes, s.pending = .load bytes :: rest) (h : step s = .next t) :
    t = s.doReset.answered rest none ∨ ∃ bytes, t = (s.load bytes).answered rest none := by
  obtain hp | ⟨bytes, hp⟩ := hp <;> rw [step_of_pending_cons hp] at h
  · cases h
    exact .inl rfl
  · exact .inr ⟨bytes, ((runAction_load_next_iff ..).mp h).2⟩

/-! ### The host's register reads (10_state.md R33) -/

/-- Settles O43: the bits of STATUS, field by field. -/
theorem statusFields : Obligations.StatusFields := by
  intro s
  refine ⟨statusCode_status s, by rw [State.status_getLsbD]; rfl, ?_⟩
  refine BitVec.eq_of_getLsbD_eq fun i hi => ?_
  rw [BitVec.getLsbD_extractLsb', State.status_getLsbD, if_neg (by omega), if_neg (by omega)]
  simp

theorem registerValue_live_snap {s : State} {i p : Nat} (hi : i < s.params.snapDepth) (hp : s.snap[i]? = some p) :
    s.registerValue (0x10 + i) = some (BitVec.ofNat 32 p) := by
  rw [s.registerValue_snap, if_pos hi, hp, Option.map_some]

/-- Settles O44: the map's rows, RESULT while it holds a value, and the live snapshots. -/
theorem registerReadsAnswer : Obligations.RegisterReadsAnswer := by
  intro s n rest word hp hrow
  refine step_regRead hp ?_
  obtain hmem | ⟨hvalid, hmem⟩ | ⟨i, p, hi, hn, hsnap, rfl⟩ := hrow
  · simp only [List.mem_cons, Prod.mk.injEq, List.not_mem_nil, or_false] at hmem
    obtain ⟨rfl, rfl⟩ | ⟨rfl, rfl⟩ | ⟨rfl, rfl⟩ | ⟨rfl, rfl⟩ | ⟨rfl, rfl⟩ | ⟨rfl, rfl⟩ | ⟨rfl, rfl⟩ |
      ⟨rfl, rfl⟩ | ⟨rfl, rfl⟩ := hmem <;> rfl
  · simp only [List.mem_cons, Prod.mk.injEq, List.not_mem_nil, or_false] at hmem
    have hresult := s.resultValue_of_rvalid hvalid
    obtain ⟨rfl, rfl⟩ | ⟨rfl, rfl⟩ := hmem
    · exact congrArg (Option.map fun v => v.extractLsb' 0 32) hresult
    · exact congrArg (Option.map fun v => v.extractLsb' 32 32) hresult
  · rw [hn, registerValue_live_snap hi hsnap]

theorem registerValue_result_none {s : State} {n : BitVec 8} (h : s.rvalid = false) (hn : n ∈ [0x03, 0x04]) :
    s.registerValue n.toNat = none := by
  have hresult := s.resultValue_of_not_rvalid h
  simp only [List.mem_cons, List.not_mem_nil, or_false] at hn
  obtain rfl | rfl := hn
  · exact congrArg (Option.map fun v => v.extractLsb' 0 32) hresult
  · exact congrArg (Option.map fun v => v.extractLsb' 32 32) hresult

theorem registerValue_gap {s : State} {n : Nat} (h : n ∈ [0x0B, 0x0C, 0x0D, 0x0E, 0x0F]) :
    s.registerValue n = none := by
  simp only [List.mem_cons, List.not_mem_nil, or_false] at h
  obtain rfl | rfl | rfl | rfl | rfl := h <;> rfl

/-- A number past the stack, or past its live part. -/
theorem registerValue_dead_snap {s : State} {n : Nat} (h : 0x10 + s.params.snapDepth ≤ n ∨ 0x10 + s.sp ≤ n) :
    s.registerValue n = none := by
  obtain ⟨i, rfl⟩ : ∃ i, n = 0x10 + i := ⟨n - 0x10, by omega⟩
  rw [s.registerValue_snap]
  split
  case isFalse => rfl
  case isTrue hi =>
    have hlen : s.snap.length ≤ i := by rw [State.sp_eq] at h; omega
    rw [List.getElem?_eq_none hlen, Option.map_none]

/-- Settles O45: the numbers whose register holds no value. -/
theorem registerReadsRefuse : Obligations.RegisterReadsRefuse := by
  intro s n rest hp h
  refine step_regRead_refused hp ?_
  obtain ⟨hvalid, hn⟩ | hn | hn := h
  · exact registerValue_result_none hvalid hn
  · exact registerValue_gap hn
  · exact registerValue_dead_snap hn

/-! ### Who writes which register (10_state.md R25 to R27) -/

/-- Settles O47: an effect of another command and an error keep CRC, and LOAD and reset clear it. -/
theorem crcRegisterWriters : Obligations.CrcRegisterWriters := by
  constructor
  · intro i s t hi h
    exact exec_keeps (fun u => u.crc) h (fun hd => hd.crc_eq hi) fun e w => raise_crc s e w
  · intro s t rest hp h
    obtain rfl | ⟨bytes, rfl⟩ := step_of_clearsError hp h <;> rfl

theorem exec_snap {i : Instr} {s t : State} (hs : i ≠ .snapshot) (hr : i ≠ .restore) (h : exec i s = .next t) :
    t.snap = s.snap :=
  exec_keeps (fun u => u.snap) h (fun hd => hd.snap_eq hs hr) fun e w => raise_snap s e w

/-- Settles O48: an effect of another command and an error keep the stack, and LOAD and reset empty it. -/
theorem snapshotStackWriters : Obligations.SnapshotStackWriters := by
  refine ⟨fun i s t => exec_snap, ?_⟩
  intro s t rest hp h
  obtain rfl | ⟨bytes, rfl⟩ := step_of_clearsError hp h <;> rfl

theorem execsTo_snap {is : List Instr} {s t : State} (his : ∀ i ∈ is, i ≠ .snapshot ∧ i ≠ .restore)
    (h : ExecsTo is s t) : t.snap = s.snap := by
  induction is generalizing s with
  | nil => rw [show s = t from h]
  | cons i is ih =>
    obtain ⟨u, hu, hrest⟩ := h
    obtain ⟨hs, hr⟩ := his i List.mem_cons_self
    rw [ih (fun j hj => his j (List.mem_cons_of_mem i hj)) hrest, exec_snap hs hr hu]

/-- Settles O30: the lookahead leaves the pushed POS on top of the stack. -/
theorem restoreUndoesLookahead : Obligations.RestoreUndoesLookahead := by
  intro s t u v is hs hroom ht his hu hcode hv
  rw [(snapshotResult s hs).1 hroom] at ht
  cases ht
  rw [(restoreResult u hcode).1 s.snap s.pos (execsTo_snap his hu)] at hv
  cases hv
  exact ⟨rfl, rfl, rfl, rfl, rfl, hcode⟩

theorem ReadForm.returns_iff {i : Instr} {n : Nat} {sign : Signedness} {advance : Bool}
    (form : ReadForm i n sign advance) (s : State) (v : Value) : Returns i s v ↔ ReadReturns n sign s v := by
  cases form <;> rfl

/-- A value-producing command that has its effect returns its value (R26). -/
theorem Done.returns {s t : State} {i : Instr} (h : Done s i t) (hi : producesValue i = true) :
    t.rvalid = true ∧ Returns i s t.result := by
  cases h with
  | @read i n sign advance bytes form enough held =>
    refine ⟨rfl, (form.returns_iff ..).mpr ?_⟩
    obtain ⟨hlen, hget⟩ := s.buf.readBytes_ok n s.pos bytes held
    exact ⟨bytes, hlen, hget, rfl⟩
  | takeSlice | remaining | position | crcRead => exact ⟨rfl, rfl⟩
  | snapshot | restore | crcInit | crcByte | crcSpan | crcCheck => cases hi

/-- With no error after it, what a command that produces no value did is its effect; an error keeps RESULT. -/
theorem exec_result {i : Instr} {s t : State} (h : exec i s = .next t)
    (hi : producesValue i = false ∨ t.code ≠ 0) : t.result = s.result ∧ t.rvalid = s.rvalid := by
  obtain ⟨-, rfl⟩ | ⟨hs, hd⟩ | ⟨e, -, -, rfl⟩ := exec_next h
  · exact ⟨rfl, rfl⟩
  · exact hd.result_eq (hi.resolve_right (not_not.mpr (hd.code_eq.trans hs)))
  · exact ⟨raise_result .., raise_rvalid ..⟩

/-- Settles O46, clause by clause. -/
theorem resultWriters : Obligations.ResultWriters := by
  refine ⟨?_, fun i s t => exec_result, ?_, ?_, ?_⟩
  · intro i s t hi _ h ht
    exact (done_of_exec_next h ht).2.returns hi
  · intro s t rest hp h
    obtain rfl | ⟨bytes, rfl⟩ := step_of_clearsError hp h <;> rfl
  · intro s hs hinvalid
    exact ⟨_, exec_of_raises hs (.noResult hinvalid), rfl⟩
  · intro s n rest hinvalid hn hp
    exact step_regRead_refused hp (registerValue_result_none hinvalid hn)

end Sys2Proof.Machine

/-!
PROOFS. The invariant of the states the block can reach (10_state.md R21 to R29), step by step, and what follows
from it: POS moves in four ways (R23), a latched error stays true (60_exceptions.md R203, R204), and every command
word is taken (R213).
-/
namespace Sys2Proof.Machine

/-! ### The invariant at reset, and the offsets under it -/

/-- A block as after reset, with legal parameters, meets the invariant (R34). -/
theorem inv_of_toBlock_reset {s : State} (h : s.toBlock = Block.reset) (hp : s.params.Legal) : Inv s := by
  obtain ⟨_, params, pending, response⟩ := s
  cases h
  exact {
    params := hp
    buffer := rfl
    len_le := Nat.zero_le _
    pos_le := Nat.le_refl 0
    sp_le := Nat.zero_le _
    snap_le := fun p hp => absurd hp List.not_mem_nil
    code_le := Nat.zero_le 6
    no_info := fun _ => ⟨rfl, rfl, rfl⟩
    no_cmd := fun _ => rfl }

/-- Settles O50: the power-up state is the block of R34, with no error. -/
theorem resetSatisfiesInv : Obligations.ResetSatisfiesInv :=
  ⟨inv_of_toBlock_reset rfl (by decide), fun h => absurd rfl h, fun _ hp => inv_of_toBlock_reset rfl hp⟩

/-- An offset up to LEN fits its register. -/
theorem Inv.lt_of_le_len {s : State} (h : Inv s) {n : Nat} (hn : n ≤ s.len) : n < 2 ^ s.params.addrW :=
  h.params.lt_of_le_maxLen (hn.trans h.len_le)

theorem Inv.narrow_of_le_len {s : State} (h : Inv s) {n : Nat} (hn : n ≤ s.len) : s.params.narrow n = n :=
  s.params.narrow_of_lt n (h.lt_of_le_len hn)

/-- Settles O51: LEN, POS and the saved positions are all at most LEN. -/
theorem offsetRegistersFit : Obligations.OffsetRegistersFit := fun _ h =>
  ⟨h.lt_of_le_len (Nat.le_refl _), h.lt_of_le_len h.pos_le, fun _ hp => h.lt_of_le_len (h.snap_le _ hp)⟩

/-- A range inside the valid bytes is read. -/
theorem Inv.readBytes_ok {s : State} (h : Inv s) {a n : Nat} (hn : a + n ≤ s.len) :
    ∃ bytes, s.buf.readBytes a n = .ok bytes :=
  s.buf.readBytes_of_addresses s.len a n h.buffer hn

/-! ### What an effect makes of POS and of the stack -/

/-- The ways in which an effect moves POS (R23). -/
inductive PosMove (s : State) (i : Instr) (pos : Nat) : Prop
  | stays (same : pos = s.pos)
  | read {n : Nat} {sign : Signedness} (form : ReadForm i n sign true) (enough : s.pos + n ≤ s.len)
      (moved : pos = s.pos + n)
  | slice {n : Imm} (slice : i = .takeSlice n) (enough : s.pos + n.toNat ≤ s.len) (moved : pos = s.pos + n.toNat)
  | restore {below : List Nat} (restore : i = .restore) (stack : s.snap = below ++ [pos])

theorem Done.posMove {s t : State} {i : Instr} (hs : Inv s) (h : Done s i t) : PosMove s i t.pos := by
  have hpos := hs.pos_le
  cases h with
  | @read i n sign advance bytes form enough held =>
    cases advance with
    | false => exact .stays rfl
    | true =>
      have hn : s.pos + n ≤ s.len := by rw [State.avail_eq] at enough; omega
      exact .read form hn (hs.narrow_of_le_len hn)
  | @takeSlice n enough =>
    have hn : s.pos + n.toNat ≤ s.len := by rw [State.avail_eq] at enough; omega
    exact .slice rfl hn (hs.narrow_of_le_len hn)
  | restore stack => exact .restore rfl stack
  | remaining | position | snapshot | crcInit | crcByte | crcSpan | crcRead | crcCheck => exact .stays rfl

theorem PosMove.le_len {s : State} {i : Instr} {pos : Nat} (hs : Inv s) (h : PosMove s i pos) : pos ≤ s.len := by
  cases h with
  | stays same => exact same.trans_le hs.pos_le
  | read _ enough moved => exact moved.trans_le enough
  | slice _ enough moved => exact moved.trans_le enough
  | restore _ stack => exact hs.snap_le pos (by simp [stack])

/-- The stack after an effect is not over-full, and holds positions within LEN (R25). -/
theorem Done.stack_ok {s t : State} {i : Instr} (hs : Inv s) (h : Done s i t) :
    t.snap.length ≤ s.params.snapDepth ∧ ∀ p ∈ t.snap, p ≤ s.len := by
  have hsp : s.snap.length ≤ s.params.snapDepth := hs.sp_le
  have hsnap := hs.snap_le
  cases h with
  | snapshot room =>
    have hroom : s.snap.length ≠ s.params.snapDepth := room
    refine ⟨by rw [List.length_append, List.length_singleton]; omega, fun p hp => ?_⟩
    obtain hp | hp := List.mem_append.mp hp
    · exact hsnap p hp
    · exact (List.mem_singleton.mp hp).trans_le hs.pos_le
  | @restore below top stack =>
    rw [stack] at hsp hsnap
    rw [List.length_append] at hsp
    exact ⟨(Nat.le_add_right ..).trans hsp, fun p hp => hsnap p (List.mem_append_left _ hp)⟩
  | read | takeSlice | remaining | position | crcInit | crcByte | crcSpan | crcRead | crcCheck =>
    exact ⟨hsp, hsnap⟩

/-! ### Every step keeps the invariant -/

theorem Inv.done {s t : State} {i : Instr} (hs : Inv s) (h : Done s i t) : Inv t := by
  have hpos := (h.posMove hs).le_len hs
  obtain ⟨hsp, hsnap⟩ := h.stack_ok hs
  rw [h.frame]
  exact { hs with pos_le := hpos, sp_le := hsp, snap_le := hsnap }

theorem Inv.of_raise {s : State} (hs : Inv s) (e : BlockError) (w : Word) : Inv (raise e w s) := by
  rw [raise_eq]
  exact { hs with
    code_le := errorCode_le e
    no_info := errorInfo_zero e
    no_cmd := fun h => absurd h (errorCode_ne_zero e) }

theorem Inv.of_runWord {s t : State} {w : Word} (hs : Inv s) (h : runWord w s = .next t) : Inv t := by
  obtain ⟨-, rfl⟩ | ⟨-, i, -, hd⟩ | ⟨e, -, -, rfl⟩ := runWord_next h
  · exact hs
  · exact hs.done hd
  · exact hs.of_raise e w

/-- The pending actions and the response are not the block's: the invariant does not speak of them. -/
theorem Inv.answered {s : State} (hs : Inv s) (rest : List Action) (r : Option Response) :
    Inv (s.answered rest r) := { hs with }

theorem Inv.load {s : State} (hp : s.params.Legal) {bytes : List Byte} (hfits : bytes.length ≤ s.params.maxLen) :
    Inv (s.load bytes) := by
  have hlen : (s.load bytes).len = bytes.length := s.params.narrow_of_lt _ (hp.lt_of_le_maxLen hfits)
  exact {
    params := hp
    buffer := by rw [State.load_buf, Memory.ofBytes_zero_addresses, hlen]
    len_le := hlen.trans_le hfits
    pos_le := Nat.zero_le _
    sp_le := Nat.zero_le _
    snap_le := fun p hp => absurd hp List.not_mem_nil
    code_le := Nat.zero_le 6
    no_info := fun _ => ⟨rfl, rfl, rfl⟩
    no_cmd := fun _ => rfl }

theorem Stepped.inv {s t : State} (hs : Inv s) (h : Stepped s t) : Inv t := by
  cases h with
  | idle => exact hs
  | reset => exact (inv_of_toBlock_reset (s := s.doReset) rfl hs.params).answered ..
  | load _ fits => exact (Inv.load hs.params fits).answered ..
  | cmd _ ran => exact (hs.of_runWord ran).answered ..
  | regRead => exact hs.answered ..

theorem runWord_params {w : Word} {s t : State} (h : runWord w s = .next t) : t.params = s.params :=
  ((State.fixedPart_eq_iff s t).mp (runWord_fixedPart h)).2.2.1

theorem Stepped.params {s t : State} (h : Stepped s t) : t.params = s.params := by
  cases h with
  | cmd _ ran => exact (State.answered_params ..).trans (runWord_params ran)
  | idle | reset | load | regRead => rfl

/-- Settles O52: each action's next state meets the invariant. -/
theorem stepKeepsInv : Obligations.StepKeepsInv := fun _ _ hs h =>
  ⟨(stepped_of_step h).inv hs, (stepped_of_step h).params⟩

/-! ### POS (10_state.md R23) -/

theorem ReadForm.mem_reads {i : Instr} {n : Nat} {sign : Signedness} {advance : Bool} (h : ReadForm i n sign advance) :
    (i, n) ∈ [(Instr.readU8 advance, 1), (.readU16 advance, 2), (.readU32 advance, 4), (.readU64 advance, 8),
      (.readI16 advance, 2), (.readI32 advance, 4)] := by
  cases h <;> simp

/-- Settles O31: a command moves POS by its effect only, and a LOAD or a RESET sets it to 0. -/
theorem posMovesInFourWays : Obligations.PosMovesInFourWays := by
  intro s t hs h
  have hstep := stepped_of_step h
  refine ⟨(hstep.inv hs).pos_le, ?_⟩
  cases hstep with
  | idle | regRead => exact .inl rfl
  | reset asked => exact .inr (.inr (.inr (.inr ⟨_, .inl asked, rfl⟩)))
  | load asked => exact .inr (.inr (.inr (.inr ⟨_, .inr ⟨_, asked⟩, rfl⟩)))
  | cmd asked ran =>
    obtain ⟨-, rfl⟩ | ⟨-, i, hi, hd⟩ | ⟨e, -, -, rfl⟩ := runWord_next ran
    · exact .inl rfl
    · rw [← (encode_of_decode hi).2] at asked
      cases hd.posMove hs with
      | stays same => exact .inl same
      | read form _ moved => exact .inr (.inl ⟨_, _, _, form.mem_reads, asked, moved⟩)
      | slice hslice _ moved => exact .inr (.inr (.inl ⟨_, _, hslice ▸ asked, moved⟩))
      | restore hrestore stack => exact .inr (.inr (.inr (.inl ⟨_, _, hrestore ▸ asked, stack⟩)))
    · exact .inl (raise_pos ..)

/-! ### Every command word is taken (60_exceptions.md R213) -/

/-- No command of a reachable state meets an offset with no byte (93_implementation_defined.md U3). -/
theorem Inv.not_stops {s : State} (hs : Inv s) {i : Instr} {f : Fault} : ¬ Stops s i f := by
  have hpos := hs.pos_le
  intro h
  cases h with
  | @read i n sign advance a form enough missing =>
    rw [State.avail_eq] at enough
    obtain ⟨bytes, hb⟩ := hs.readBytes_ok (show s.pos + n ≤ s.len by omega)
    cases hb.symm.trans missing
  | @crcSpan start a le missing =>
    obtain ⟨bytes, hb⟩ := hs.readBytes_ok (show start.toNat + (s.pos - start.toNat) ≤ s.len by omega)
    cases hb.symm.trans missing

theorem Inv.exec_total {s : State} (hs : Inv s) (i : Instr) : ∃ t, exec i s = .next t := by
  obtain ⟨-, h⟩ | ⟨-, t, -, h⟩ | ⟨-, e, -, h⟩ | ⟨-, f, hf, -⟩ := exec_cases i s
  · exact ⟨_, h⟩
  · exact ⟨_, h⟩
  · exact ⟨_, h⟩
  · exact absurd hf hs.not_stops

theorem Inv.runWord_total {s : State} (hs : Inv s) (w : Word) : ∃ t, runWord w s = .next t := by
  cases hw : decode w with
  | ok i =>
    obtain ⟨t, ht⟩ := hs.exec_total i
    exact ⟨t, by rw [runWord_of_decode_ok hw, ht]⟩
  | error d =>
    by_cases hc : s.code = 0
    · exact ⟨_, runWord_of_wordRaises hc (.illFormed hw)⟩
    · exact ⟨_, runWord_errored hc w⟩

/-- Settles O53: the word runs to a next state, which keeps LEN. -/
theorem everyCommandCompletes : Obligations.EveryCommandCompletes := by
  intro s w rest hs hp
  obtain ⟨t, ht⟩ := hs.runWord_total w
  obtain ⟨-, hlen, -⟩ := (State.fixedPart_eq_iff s t).mp (runWord_fixedPart ht)
  exact ⟨_, step_cmd hp ht, rfl, hlen⟩

/-! ### A latched error stays true (60_exceptions.md R203, R204) -/

/-- An error does not depend on a RESULT that holds no value, the pending actions or the response. -/
theorem Raises.congr {s : State} {i : Instr} {e : BlockError} (h : Raises s i e) {v : Value}
    (hlive : s.rvalid = true → v = s.result) (rest : List Action) (r : Option Response) :
    Raises (State.answered rest r { s with result := v }) i e := by
  cases h with
  | read form short => exact .read form short
  | takeSlice short => exact .takeSlice short
  | snapshot full => exact .snapshot full
  | restore empty => exact .restore empty
  | crcByte upper => exact .crcByte upper
  | crcSpan gt => exact .crcSpan gt
  | noResult invalid => exact .noResult invalid
  | crcMismatch valid differs => exact .crcMismatch valid (by rw [State.answered_result, hlive valid]; exact differs)

theorem WordRaises.congr {s : State} {w : Word} {e : BlockError} (h : WordRaises s w e) {v : Value}
    (hlive : s.rvalid = true → v = s.result) (rest : List Action) (r : Option Response) :
    WordRaises (State.answered rest r { s with result := v }) w e := by
  cases h with
  | command decoded raises => exact .command decoded (raises.congr hlive rest r)
  | illFormed rejected => exact .illFormed rejected

theorem WordRaises.answered {s : State} {w : Word} {e : BlockError} (h : WordRaises s w e) (rest : List Action)
    (r : Option Response) : WordRaises (s.answered rest r) w e := h.congr (fun _ => rfl) rest r

/-- With an error latched, the record is true just if it is what `raise` makes of the state without it. -/
theorem errorRecordTrue_iff (s : State) :
    ErrorRecordTrue s ↔
      (s.code ≠ 0 → ∃ e, WordRaises s.withoutError s.errCmd e ∧ s = raise e s.errCmd s.withoutError) := by
  refine forall_congr' fun hs => ⟨fun h => ?_, ?_⟩
  · obtain ⟨hne, -⟩ | ⟨-, i, -, hd⟩ | ⟨e, -, hr, heq⟩ := runWord_next h
    · exact absurd rfl hne
    · exact absurd hd.code_eq hs
    · exact ⟨e, hr, heq⟩
  · rintro ⟨e, hr, heq⟩
    rw [runWord_of_wordRaises rfl hr, ← heq]

theorem raise_answered (e : BlockError) (w : Word) (s : State) (rest : List Action) (r : Option Response) :
    raise e w (s.answered rest r) = (raise e w s).answered rest r := by
  rw [raise_eq, raise_eq]
  rfl

theorem ErrorRecordTrue.answered {s : State} (h : ErrorRecordTrue s) (rest : List Action) (r : Option Response) :
    ErrorRecordTrue (s.answered rest r) := by
  rw [errorRecordTrue_iff] at h ⊢
  intro hs
  obtain ⟨e, hr, heq⟩ := h hs
  refine ⟨e, hr.answered rest r, ?_⟩
  exact (congrArg (State.answered rest r) heq).trans (raise_answered ..).symm

theorem errorRecordTrue_of_code_zero {s : State} (hs : s.code = 0) : ErrorRecordTrue s := fun h => absurd hs h

/-- In a reachable state with no error there is nothing to clear (10_state.md R29). -/
theorem Inv.withoutError_eq {s : State} (hs : Inv s) (hc : s.code = 0) : s.withoutError = s := by
  obtain ⟨hoffset, hneeded, havail⟩ := hs.no_info (by rw [hc]; decide)
  have heq : s = { s.withoutError with
      code := s.code, errOffset := s.errOffset, errNeeded := s.errNeeded, errAvail := s.errAvail
      errCmd := s.errCmd } := rfl
  rw [hc, hoffset, hneeded, havail, hs.no_cmd hc] at heq
  exact heq.symm

theorem withoutError_raise (e : BlockError) (w : Word) (s : State) :
    (raise e w s).withoutError = s.withoutError := by
  rw [raise_eq]
  rfl

/-- The error a word raises in a reachable state is recorded truly. -/
theorem Inv.errorRecordTrue_raise {s : State} (hs : Inv s) (hc : s.code = 0) {w : Word} {e : BlockError}
    (h : WordRaises s w e) : ErrorRecordTrue (raise e w s) := by
  intro _
  rw [withoutError_raise, hs.withoutError_eq hc, raise_errCmd, runWord_of_wordRaises hc h]

theorem ErrorRecordTrue.of_runWord {s t : State} {w : Word} (hs : Inv s) (h : ErrorRecordTrue s)
    (hrun : runWord w s = .next t) : ErrorRecordTrue t := by
  obtain ⟨-, rfl⟩ | ⟨hc, i, -, hd⟩ | ⟨e, hc, hr, rfl⟩ := runWord_next hrun
  · exact h
  · exact errorRecordTrue_of_code_zero (hd.code_eq.trans hc)
  · exact hs.errorRecordTrue_raise hc hr

/-- Settles O14: a command latches a true record or keeps the one there is; LOAD and reset clear it. -/
theorem errorRecordStaysTrue : Obligations.ErrorRecordStaysTrue := by
  intro s t hs h hstep
  cases stepped_of_step hstep with
  | idle => exact h
  | reset | load => exact errorRecordTrue_of_code_zero rfl
  | cmd _ ran => exact (h.of_runWord hs ran).answered _ _
  | regRead => exact h.answered _ _

end Sys2Proof.Machine

/-!
PROOFS. What a step does not depend on: the contents of a RESULT that holds no value (10_state.md R26), what the
block held before a LOAD (70_reset_and_hazards.md R222), and the other blocks (60_exceptions.md R214).
-/
namespace Sys2Proof.Machine

/-! ### A RESULT that holds no value (10_state.md R26) -/

theorem SameButDeadResult.refl (s : State) : SameButDeadResult s s := ⟨rfl, fun _ => rfl⟩

/-- The other state is the one with some contents of RESULT, its own where RESULT holds a value. -/
theorem sameButDeadResult_iff (s t : State) :
    SameButDeadResult s t ↔ ∃ v, t = { s with result := v } ∧ (s.rvalid = true → v = s.result) := by
  constructor
  · rintro ⟨heq, hlive⟩
    exact ⟨t.result, heq, hlive⟩
  · rintro ⟨v, rfl, hlive⟩
    exact ⟨rfl, hlive⟩

theorem SameButDeadResult.answered {s t : State} (h : SameButDeadResult s t) (rest : List Action)
    (r : Option Response) : SameButDeadResult (s.answered rest r) (t.answered rest r) := by
  obtain ⟨v, rfl, hlive⟩ := (sameButDeadResult_iff s t).mp h
  exact ⟨rfl, hlive⟩

theorem SameButDeadResult.resultValue_eq {s t : State} (h : SameButDeadResult s t) :
    t.resultValue = s.resultValue := by
  obtain ⟨v, rfl, hlive⟩ := (sameButDeadResult_iff s t).mp h
  change (if s.rvalid then some v else none) = if s.rvalid then some s.result else none
  split
  case isTrue hvalid => rw [hlive hvalid]
  case isFalse => rfl

theorem SameButDeadResult.cmdResponse_eq {s t : State} (h : SameButDeadResult s t) :
    t.cmdResponse = s.cmdResponse := by
  have hresult := h.resultValue_eq
  obtain ⟨v, rfl, -⟩ := (sameButDeadResult_iff s t).mp h
  exact congrArg (Response.cmd s.status) hresult

theorem SameButDeadResult.registerValue_eq {s t : State} (h : SameButDeadResult s t) (n : Nat) :
    t.registerValue n = s.registerValue n := by
  have hresult := h.resultValue_eq
  obtain ⟨v, rfl, -⟩ := (sameButDeadResult_iff s t).mp h
  unfold State.registerValue
  split
  case h_4 | h_5 => rw [hresult]
  all_goals rfl

/-- An effect writes RESULT or leaves it alone, and only CRC_CHECK reads it, where it holds a value. -/
theorem Done.sameButDeadResult {s t s' : State} {i : Instr} (h : SameButDeadResult s t) (hd : Done s i s') :
    ∃ t', Done t i t' ∧ SameButDeadResult s' t' := by
  obtain ⟨v, rfl, hlive⟩ := (sameButDeadResult_iff s t).mp h
  cases hd with
  | read form enough held => exact ⟨_, .read form enough held, rfl, fun _ => rfl⟩
  | takeSlice enough => exact ⟨_, .takeSlice enough, rfl, fun _ => rfl⟩
  | remaining => exact ⟨_, .remaining, rfl, fun _ => rfl⟩
  | position => exact ⟨_, .position, rfl, fun _ => rfl⟩
  | snapshot room => exact ⟨_, .snapshot room, rfl, hlive⟩
  | restore stack => exact ⟨_, .restore stack, rfl, hlive⟩
  | crcInit => exact ⟨_, .crcInit, rfl, hlive⟩
  | crcByte upper => exact ⟨_, .crcByte upper, rfl, hlive⟩
  | crcSpan le held => exact ⟨_, .crcSpan le held, rfl, hlive⟩
  | crcRead => exact ⟨_, .crcRead, rfl, fun _ => rfl⟩
  | crcCheck valid agrees => exact ⟨_, .crcCheck valid (by rw [hlive valid]; exact agrees), rfl, hlive⟩

theorem WordRaises.sameButDeadResult {s t : State} {w : Word} {e : BlockError} (h : SameButDeadResult s t)
    (hr : WordRaises s w e) : WordRaises t w e := by
  obtain ⟨v, rfl, hlive⟩ := (sameButDeadResult_iff s t).mp h
  exact hr.congr hlive s.pending s.response

theorem Stops.sameButDeadResult {s t : State} {i : Instr} {f : Fault} (h : SameButDeadResult s t)
    (hf : Stops s i f) : Stops t i f := by
  obtain ⟨v, rfl, -⟩ := (sameButDeadResult_iff s t).mp h
  obtain ⟨form, enough, missing⟩ | ⟨le, missing⟩ := hf
  · exact .read form enough missing
  · exact .crcSpan le missing

theorem SameButDeadResult.of_raise {s t : State} (h : SameButDeadResult s t) (e : BlockError) (w : Word) :
    SameButDeadResult (raise e w s) (raise e w t) := by
  obtain ⟨v, rfl, hlive⟩ := (sameButDeadResult_iff s t).mp h
  rw [raise_eq, raise_eq]
  exact ⟨rfl, hlive⟩

theorem SameButDeadResult.code_eq {s t : State} (h : SameButDeadResult s t) : t.code = s.code := by
  rw [h.1]

theorem SameButDeadResult.of_runWord {s t s' : State} {w : Word} (h : SameButDeadResult s t)
    (hs : runWord w s = .next s') : ∃ t', runWord w t = .next t' ∧ SameButDeadResult s' t' := by
  obtain ⟨hc, rfl⟩ | ⟨hc, i, hi, hd⟩ | ⟨e, hc, hr, rfl⟩ := runWord_next hs <;> rw [← h.code_eq] at hc
  · exact ⟨t, runWord_errored hc w, h⟩
  · obtain ⟨t', hd', h'⟩ := hd.sameButDeadResult h
    exact ⟨t', by rw [runWord_of_decode_ok hi, exec_of_done hc hd'], h'⟩
  · exact ⟨_, runWord_of_wordRaises hc (hr.sameButDeadResult h), h.of_raise e w⟩

/-- A word faults only as its command does. -/
theorem runWord_fault_iff {w : Word} {s : State} {f : Fault} :
    runWord w s = .fault f ↔ s.code = 0 ∧ ∃ i, decode w = .ok i ∧ Stops s i f := by
  constructor
  · intro h
    cases hw : decode w with
    | ok i =>
      rw [runWord_of_decode_ok hw] at h
      obtain ⟨-, heq⟩ | ⟨-, t, -, heq⟩ | ⟨-, e, -, heq⟩ | ⟨hc, f', hf, heq⟩ := exec_cases i s <;>
        rw [heq] at h <;> cases h
      exact ⟨hc, i, rfl, hf⟩
    | error d =>
      rw [runWord_of_decode_error hw] at h
      cases (command_fault h).2
  · rintro ⟨hc, i, hi, hf⟩
    rw [runWord_of_decode_ok hi, exec_of_stops hc hf]

theorem runWord_ne_refused (w : Word) (s : State) (r : Refusal) : runWord w s ≠ .refused r := by
  cases hw : decode w with
  | ok i => rw [runWord_of_decode_ok hw, exec_eq_command]; exact command_ne_refused r
  | error d => rw [runWord_of_decode_error hw]; exact command_ne_refused r

theorem SameButDeadResult.of_load {s t : State} (h : SameButDeadResult s t) (bytes : List Byte) :
    SameButDeadResult (s.load bytes) (t.load bytes) := by
  rw [h.1]
  exact ⟨rfl, fun hv => nomatch hv⟩

theorem SameButDeadResult.pending_eq {s t : State} (h : SameButDeadResult s t) : t.pending = s.pending := by
  rw [h.1]

theorem SameButDeadResult.params_eq {s t : State} (h : SameButDeadResult s t) : t.params = s.params := by
  rw [h.1]

theorem SameButDeadResult.readRegister_eq {s t : State} (h : SameButDeadResult s t) (n : BitVec 8) :
    t.readRegister n = s.readRegister n := by
  rw [State.readRegister, State.readRegister, h.registerValue_eq]

/-- The two states step alike. -/
theorem SameButDeadResult.step_next {s t s' : State} (h : SameButDeadResult s t) (hs : step s = .next s') :
    ∃ t', step t = .next t' ∧ SameButDeadResult s' t' ∧ t'.response = s'.response := by
  cases stepped_of_step hs with
  | idle none => exact ⟨t, step_of_pending_nil (h.pending_eq.trans none), h, by rw [h.1]⟩
  | @reset rest asked =>
    refine ⟨t.doReset.answered rest none,
      by rw [step_of_pending_cons (h.pending_eq.trans asked), runAction_reset], ?_, rfl⟩
    rw [h.1]
    exact .refl _
  | load asked fits =>
    exact ⟨_, step_load (h.pending_eq.trans asked) (h.params_eq ▸ fits), (h.of_load _).answered .., rfl⟩
  | cmd asked ran =>
    obtain ⟨t', ht, h'⟩ := h.of_runWord ran
    refine ⟨_, step_cmd (h.pending_eq.trans asked) ht, ?_, congrArg some h'.cmdResponse_eq⟩
    rw [h'.cmdResponse_eq]
    exact h'.answered ..
  | regRead asked value =>
    have hvalue := (s.readRegister_ok_iff ..).mp value
    exact ⟨_, step_regRead (h.pending_eq.trans asked) (by rw [h.registerValue_eq, hvalue]), h.answered .., rfl⟩

/-- A step faults only as the command it takes does. -/
theorem step_fault_iff {s : State} {f : Fault} :
    step s = .fault f ↔ ∃ w rest, s.pending = .cmd w :: rest ∧ runWord w s = .fault f := by
  constructor
  · intro h
    cases hp : s.pending with
    | nil => rw [step_of_pending_nil hp] at h; cases h
    | cons a rest =>
      rw [step_of_pending_cons hp] at h
      cases a with
      | reset => cases h
      | load bytes => rw [runAction] at h; split at h <;> cases h
      | cmd w =>
        refine ⟨w, rest, rfl, ?_⟩
        rw [runAction] at h
        split at h <;> cases h
        assumption
      | regRead number => rw [runAction] at h; split at h <;> cases h
  · rintro ⟨w, rest, hp, h⟩
    rw [step_of_pending_cons hp, runAction, h]

/-- A step is refused for a LOAD that is too long or a register that holds no value. -/
theorem step_refused_iff {s : State} {r : Refusal} :
    step s = .refused r ↔
      (∃ bytes rest, s.pending = .load bytes :: rest ∧ s.params.maxLen < bytes.length ∧
        r = .loadTooLong bytes.length) ∨
      ∃ number rest, s.pending = .regRead number :: rest ∧ s.readRegister number = .error r := by
  constructor
  · intro h
    cases hp : s.pending with
    | nil => rw [step_of_pending_nil hp] at h; cases h
    | cons a rest =>
      rw [step_of_pending_cons hp] at h
      cases a with
      | reset => cases h
      | load bytes =>
        rw [runAction] at h
        split at h <;> cases h
        next hlong => exact .inl ⟨bytes, rest, rfl, hlong, rfl⟩
      | cmd w =>
        rw [runAction] at h
        split at h <;> cases h
        next hw => exact absurd hw (runWord_ne_refused w s r)
      | regRead number =>
        rw [runAction] at h
        split at h <;> cases h
        next hread => exact .inr ⟨number, rest, rfl, hread⟩
  · rintro (⟨bytes, rest, hp, hlong, rfl⟩ | ⟨number, rest, hp, hread⟩)
    · rw [step_of_pending_cons hp, runAction, if_pos hlong]
    · rw [step_of_pending_cons hp, runAction, hread]

/-- Settles O54: next states, faults and refusals are all decided without a RESULT that holds no value. -/
theorem deadResultInvisible : Obligations.DeadResultInvisible := by
  intro s t h
  refine ⟨fun s' => h.step_next, fun f hf => ?_, fun r hr => ?_⟩
  · obtain ⟨w, rest, hp, hrun⟩ := step_fault_iff.mp hf
    obtain ⟨hc, i, hi, hstops⟩ := runWord_fault_iff.mp hrun
    exact step_fault_iff.mpr ⟨w, rest, h.pending_eq.trans hp,
      runWord_fault_iff.mpr ⟨h.code_eq.trans hc, i, hi, hstops.sameButDeadResult h⟩⟩
  · rw [step_refused_iff, h.pending_eq, h.params_eq]
    simpa only [h.readRegister_eq] using step_refused_iff.mp hr

/-! ### LOAD (70_reset_and_hazards.md R222) -/

theorem SameButDeadResult.stepsTo {k : Nat} {s t s' : State} (h : SameButDeadResult s t)
    (hresponse : t.response = s.response) (hs : StepsTo k s s') :
    ∃ t', StepsTo k t t' ∧ SameButDeadResult s' t' ∧ t'.response = s'.response := by
  induction k generalizing s t with
  | zero =>
    cases hs
    exact ⟨t, rfl, h, hresponse⟩
  | succ k ih =>
    obtain ⟨u, hu, hrest⟩ := hs
    obtain ⟨v, hv, huv, hresponse'⟩ := h.step_next hu
    obtain ⟨t', ht, h'⟩ := ih huv hresponse' hrest
    exact ⟨t', ⟨v, hv, ht⟩, h'⟩

/-- LOAD writes everything but RESULT, which then holds no value. -/
theorem sameButDeadResult_load {s t : State} (hp : s.params = t.params) (bytes : List Byte) (rest : List Action)
    (r : Option Response) : SameButDeadResult ((s.load bytes).answered rest r) ((t.load bytes).answered rest r) := by
  refine ⟨?_, fun hv => nomatch hv⟩
  simp only [State.answered, State.load, hp]

/-- Settles O55: after the LOAD the two blocks differ in a dead RESULT only, and from there they run alike. -/
theorem loadForgetsThePast : Obligations.LoadForgetsThePast := by
  rintro s t bytes rest hparams hs ht k s' ⟨u, hu, hrest⟩
  rw [step_of_pending_cons hs] at hu
  obtain ⟨hfits, rfl⟩ := (runAction_load_next_iff ..).mp hu
  obtain ⟨t', ht', h⟩ := (sameButDeadResult_load hparams bytes rest none).stepsTo rfl hrest
  exact ⟨t', ⟨_, step_load ht (hparams ▸ hfits), ht'⟩, h⟩

/-! ### Several blocks (60_exceptions.md R214) -/

/-- A step of block `j`: there is none and nothing moves, or it alone moves. -/
theorem stepBlock_next_iff (j : Nat) (bs b : Blocks) :
    stepBlock j bs = .next b ↔
      (bs[j]? = none ∧ b = bs) ∨ ∃ s t, bs[j]? = some s ∧ step s = .next t ∧ b = bs.set j t := by
  rw [stepBlock]
  cases hj : bs[j]? with
  | none => simp [eq_comm]
  | some s => cases hs : step s <;> simp [hs, eq_comm]

theorem stepBlock_getElem?_ne {j k : Nat} {bs b : Blocks} (hjk : j ≠ k) (h : stepBlock j bs = .next b) :
    b[k]? = bs[k]? := by
  obtain ⟨-, rfl⟩ | ⟨s, t, -, -, rfl⟩ := (stepBlock_next_iff ..).mp h
  · rfl
  · exact List.getElem?_set_ne hjk

/-- Settles O56: writes to two different places of a list commute. -/
theorem blocksAreIndependent : Obligations.BlocksAreIndependent := by
  intro j k bs b1 b2 hjk h1 h2
  have hk := stepBlock_getElem?_ne hjk h1
  refine ⟨hk, ?_⟩
  simp only [stepBlock_next_iff] at h1 h2 ⊢
  rw [hk] at h2
  obtain ⟨hj, rfl⟩ | ⟨s, s', hj, hs, rfl⟩ := h1 <;> obtain ⟨hnone, rfl⟩ | ⟨t, t', hkt, ht, rfl⟩ := h2
  · exact ⟨_, .inl ⟨hnone, rfl⟩, .inl ⟨hj, rfl⟩⟩
  · exact ⟨_, .inr ⟨t, t', hkt, ht, rfl⟩, .inl ⟨by rw [List.getElem?_set_ne hjk.symm, hj], rfl⟩⟩
  · exact ⟨_, .inl ⟨hnone, rfl⟩, .inr ⟨s, s', hj, hs, rfl⟩⟩
  · exact ⟨_, .inr ⟨t, t', hkt, ht, rfl⟩,
      .inr ⟨s, s', by rw [List.getElem?_set_ne hjk.symm, hj], hs, List.set_comm s' t' hjk⟩⟩

end Sys2Proof.Machine

/-!
PROOFS. The host's hex conversion (43_frame_check.md R160).
-/
namespace Sys2Proof.Machine

/-- The hex digits with their values, as the statement HexConversion lists them (R160). -/
def hexDigitTable : List (Char × Nat) :=
  [('0', 0), ('1', 1), ('2', 2), ('3', 3), ('4', 4), ('5', 5), ('6', 6), ('7', 7), ('8', 8), ('9', 9),
    ('a', 10), ('b', 11), ('c', 12), ('d', 13), ('e', 14), ('f', 15),
    ('A', 10), ('B', 11), ('C', 12), ('D', 13), ('E', 14), ('F', 15)]

theorem hexDigit_toNat_lt {c : Char} {n : Nat} (h : hexDigit c = some n) : c.toNat < 103 := by
  simp only [hexDigit] at h
  split_ifs at h <;> omega

/-- The table by the character codes: all digits lie below 103. -/
theorem hexDigit_mem_table : ∀ k < 103, ∀ n ∈ hexDigit (Char.ofNat k), (Char.ofNat k, n) ∈ hexDigitTable := by
  decide

theorem hexDigit_of_mem_table : ∀ p ∈ hexDigitTable, hexDigit p.1 = some p.2 := by decide

theorem hexDigit_eq_some_iff (c : Char) (n : Nat) : hexDigit c = some n ↔ (c, n) ∈ hexDigitTable := by
  constructor
  · intro h
    have hmem := hexDigit_mem_table c.toNat (hexDigit_toNat_lt h) n
    rw [Char.ofNat_toNat] at hmem
    exact hmem h
  · exact hexDigit_of_mem_table (c, n)

theorem hexDigit_lt {c : Char} {n : Nat} (h : hexDigit c = some n) : n < 16 :=
  (show ∀ p ∈ hexDigitTable, p.2 < 16 by decide) (c, n) ((hexDigit_eq_some_iff c n).mp h)

theorem hexBytes_cons_cons_eq_some_iff (hi lo : Char) (rest : List Char) (bytes : List Byte) :
    hexBytes (hi :: lo :: rest) = some bytes ↔
      ∃ h l bs, hexDigit hi = some h ∧ hexDigit lo = some l ∧ hexBytes rest = some bs ∧
        bytes = BitVec.ofNat 8 (16 * h + l) :: bs := by
  rw [hexBytes]
  split
  next h l bs hhi hlo hrest => simp [hhi, hlo, hrest, eq_comm]
  next hfails =>
    refine ⟨nofun, ?_⟩
    rintro ⟨h, l, bs, hhi, hlo, hrest, -⟩
    exact (hfails h l bs hhi hlo hrest).elim

theorem hexBytes_cons_cons_eq_none_iff (hi lo : Char) (rest : List Char) :
    hexBytes (hi :: lo :: rest) = none ↔ hexDigit hi = none ∨ hexDigit lo = none ∨ hexBytes rest = none := by
  rw [hexBytes]
  split
  next h l bs hhi hlo hrest => simp [hhi, hlo, hrest]
  next hfails =>
    refine iff_of_true rfl ?_
    by_contra hall
    simp only [not_or, ← ne_eq, Option.ne_none_iff_exists'] at hall
    obtain ⟨⟨h, hhi⟩, ⟨l, hlo⟩, bs, hrest⟩ := hall
    exact hfails h l bs hhi hlo hrest

/-- The conversion goes two characters at a time, so only an odd length or a wrong character stops it. -/
theorem hexBytes_eq_none_iff :
    ∀ text : List Char, hexBytes text = none ↔ text.length % 2 = 1 ∨ ∃ c ∈ text, hexDigit c = none
  | [] => by simp [hexBytes]
  | [_] => by simp [hexBytes]
  | hi :: lo :: rest => by
    have hlength : (hi :: lo :: rest).length % 2 = rest.length % 2 := Nat.add_mod_right rest.length 2
    rw [hexBytes_cons_cons_eq_none_iff, hexBytes_eq_none_iff rest, hlength]
    simp only [List.mem_cons, exists_eq_or_imp]
    tauto

theorem hexBytes_length : ∀ (text : List Char) (bytes : List Byte), hexBytes text = some bytes →
    text.length = 2 * bytes.length
  | [], _, h => by cases h; rfl
  | [_], _, h => by cases h
  | hi :: lo :: rest, bytes, h => by
    obtain ⟨_, _, bs, -, -, hrest, rfl⟩ := (hexBytes_cons_cons_eq_some_iff ..).mp h
    simp only [List.length_cons, hexBytes_length rest bs hrest]
    omega

/-- Byte `k` is characters `2k` and `2k+1`, the first the high nibble (R160). -/
theorem hexBytes_getElem? : ∀ (text : List Char) (bytes : List Byte), hexBytes text = some bytes →
    ∀ k b, bytes[k]? = some b →
      ∃ hi lo h l, text[2 * k]? = some hi ∧ text[2 * k + 1]? = some lo ∧
        hexDigit hi = some h ∧ hexDigit lo = some l ∧ b.toNat = 16 * h + l
  | [], _, h, k, b, hk => by cases h; cases hk
  | [_], _, h, _, _, _ => by cases h
  | hi :: lo :: rest, bytes, h, k, b, hk => by
    obtain ⟨hval, lval, bs, hhi, hlo, hrest, rfl⟩ := (hexBytes_cons_cons_eq_some_iff ..).mp h
    cases k with
    | zero =>
      cases hk
      have := hexDigit_lt hhi
      have := hexDigit_lt hlo
      exact ⟨hi, lo, hval, lval, rfl, rfl, hhi, hlo, by rw [BitVec.toNat_ofNat]; omega⟩
    | succ k => exact hexBytes_getElem? rest bs hrest k b hk

/-- Settles O57: the digits by the table, the rest two characters at a time. -/
theorem hexConversion : Obligations.HexConversion :=
  ⟨hexDigit_eq_some_iff, hexBytes_eq_none_iff, fun text bytes h =>
    ⟨hexBytes_length text bytes h, hexBytes_getElem? text bytes h⟩⟩

end Sys2Proof.Machine

/-!
PROOFS. The rules for reasoning about a part of the Codec 8 client (43_frame_check.md R162): what it ends with from
a state of the block, statement by statement and command by command.
-/
namespace Sys2Proof.Machine

/-! ### Parts of the client -/

/-- From `s` the part `m` of the client goes on with a value and a state that meet `Q`, or it rejects the frame:
it never ends in any other way (R173). -/
def Ends {α : Type} (m : Client α) (s : State) (Q : α → State → Prop) : Prop :=
  match m.run s with
  | (.ok a, t) => Q a t
  | (.error e, _) => ∃ reason, e = .rejected reason

section
variable {α β : Type} {s : State}

theorem Ends.of_run_ok {m : Client α} {Q : α → State → Prop} {a : α} {t : State} (h : Ends m s Q)
    (hrun : m.run s = (.ok a, t)) : Q a t := by
  rw [Ends, hrun] at h
  exact h

theorem Ends.of_run_error {m : Client α} {Q : α → State → Prop} {e : Stop} {t : State} (h : Ends m s Q)
    (hrun : m.run s = (.error e, t)) : ∃ reason, e = .rejected reason := by
  rw [Ends, hrun] at h
  exact h

theorem Ends.mono {m : Client α} {Q R : α → State → Prop} (h : Ends m s Q) (hQ : ∀ a t, Q a t → R a t) :
    Ends m s R := by
  unfold Ends at h ⊢
  generalize m.run s = ended at h ⊢
  obtain ⟨_ | a, t⟩ := ended
  · exact h
  · exact hQ a t h

theorem ends_pure {a : α} {Q : α → State → Prop} : Ends (pure a) s Q ↔ Q a s := Iff.rfl

theorem ends_get {Q : State → State → Prop} : Ends get s Q ↔ Q s s := Iff.rfl

theorem ends_set {t : State} {Q : PUnit → State → Prop} : Ends (set t) s Q ↔ Q () t := Iff.rfl

theorem ends_bind {m : Client α} {f : α → Client β} {Q : β → State → Prop} :
    Ends (m >>= f) s Q ↔ Ends m s fun a t => Ends (f a) t Q := by
  have hrun : (m >>= f).run s = ExceptT.bindCont f (m.run s).1 (m.run s).2 := rfl
  unfold Ends
  rw [hrun]
  obtain ⟨_ | _, t⟩ := m.run s <;> rfl

theorem Ends.bind {m : Client α} {f : α → Client β} {Q : α → State → Prop} {R : β → State → Prop}
    (h : Ends m s Q) (hf : ∀ a t, Q a t → Ends (f a) t R) : Ends (m >>= f) s R :=
  ends_bind.mpr (h.mono hf)

theorem ends_rejectIf {bad : Bool} {reason : Rejection} {Q : Unit → State → Prop} :
    Ends (rejectIf bad reason) s Q ↔ (bad = false → Q () s) := by
  cases bad with
  | false => exact ⟨fun h _ => h, fun h => h rfl⟩
  | true => exact ⟨fun _ h => (nomatch h), fun _ => ⟨reason, rfl⟩⟩

/-- What follows a check may assume that it passed. -/
theorem Ends.rejectIf_bind {bad : Bool} {reason : Rejection} {f : Unit → Client β} {R : β → State → Prop}
    (h : bad = false → Ends (f ()) s R) : Ends (rejectIf bad reason >>= f) s R :=
  ends_bind.mpr (ends_rejectIf.mpr h)

end

/-! ### One command (R162) -/

/-- TruncatedInput and CrcMismatch are the errors of the block that the client passes on (R162). -/
theorem blockStop_rejected {s : State} (h : s.code = 1 ∨ s.code = 2) :
    ∃ reason, blockStop s = .rejected reason := by
  unfold blockStop
  obtain h | h := h
  · exact ⟨_, if_pos h⟩
  · exact ⟨.crcMismatch, by rw [if_neg (by rw [h]; decide), if_pos h]⟩

theorem step_withCommand {i : Instr} {s t : State} (hi : i.WellFormed)
    (h : exec i (s.withCommand (encode i)) = .next t) :
    step (s.withCommand (encode i)) = .next (t.answered s.pending (some t.cmdResponse)) :=
  step_cmd rfl ((runWord_of_decode_ok (decode_encode hi) _).trans h)

/-- The client reads STATUS and RESULT of the state that the command left (R162). -/
theorem ends_issue {i : Instr} {s t : State} {Q : Option Value → State → Prop} (hi : i.WellFormed)
    (h : exec i (s.withCommand (encode i)) = .next t)
    (hok : t.code = 0 → Q t.resultValue (t.answered s.pending (some t.cmdResponse)))
    (herror : t.code ≠ 0 → t.code = 1 ∨ t.code = 2) : Ends (issue i) s Q := by
  unfold issue
  rw [ends_bind, ends_get, step_withCommand hi h]
  change Ends (do
    set (t.answered s.pending (some t.cmdResponse))
    if statusCode t.status = 0 then pure t.resultValue
      else throw (blockStop (t.answered s.pending (some t.cmdResponse))) : Client _) s Q
  rw [ends_bind, ends_set, statusCode_status]
  split
  case isTrue hc => exact hok hc
  case isFalse hc => exact blockStop_rejected (herror hc)

end Sys2Proof.Machine

/-!
PROOFS. The Codec 8 client over a loaded frame (43_frame_check.md R160 to R173): where it stands in the bytes, what
each part of it reads there, and so what a Valid verdict says and which ends there are.
-/
namespace Sys2Proof.Machine

/-! ### Where the client stands -/

/-- The block holds `bytes`, with POS at `pos`, the running CRC at `crc` and no error. -/
structure At (bytes : List Byte) (pos : Nat) (crc : Crc) (s : State) : Prop where
  inv : Inv s
  ok : s.code = 0
  len : s.len = bytes.length
  byte : ∀ k, s.buf.read k = bytes[k]?
  pos : s.pos = pos
  crc : s.crc = crc

section
variable {bytes : List Byte} {pos : Nat} {crc : Crc} {s t : State}

theorem At.congr {pos' : Nat} {crc' : Crc} (h : At bytes pos crc s) (hpos : pos = pos') (hcrc : crc = crc') :
    At bytes pos' crc' s := hpos ▸ hcrc ▸ h

theorem At.pos_le (h : At bytes pos crc s) : pos ≤ bytes.length := by
  rw [← h.pos, ← h.len]
  exact h.inv.pos_le

theorem At.len_fits (h : At bytes pos crc s) : s.len < 2 ^ s.params.addrW := h.inv.lt_of_le_len (Nat.le_refl _)

/-- Offsets in the buffer have 16 bits (92_eei_decisions.md D16, D17). -/
theorem At.length_le (h : At bytes pos crc s) : bytes.length ≤ 65535 := by
  rw [← h.len]
  exact h.inv.len_le.trans h.inv.params.2.1

theorem At.answered (h : At bytes pos crc s) (rest : List Action) (r : Option Response) :
    At bytes pos crc (s.answered rest r) :=
  ⟨h.inv.answered rest r, h.ok, h.len, h.byte, h.pos, h.crc⟩

theorem At.withCommand (h : At bytes pos crc s) (w : Word) : At bytes pos crc (s.withCommand w) :=
  h.answered (.cmd w :: s.pending) s.response

/-- A command that ends with no error moves POS and CRC, and leaves the bytes. -/
theorem At.of_exec {i : Instr} (h : At bytes pos crc s) (ht : exec i s = .next t) (hc : t.code = 0) :
    At bytes t.pos t.crc t := by
  obtain ⟨hbuf, hlen, -⟩ := (State.fixedPart_eq_iff s t).mp (exec_fixedPart ht)
  exact ⟨h.inv.done (done_of_exec_next ht hc).2, hc, hlen.trans h.len, fun k => by rw [hbuf, h.byte], rfl, rfl⟩

/-- Within the bytes, the buffer holds the range of the list. -/
theorem At.readBytes (h : At bytes pos crc s) {a n : Nat} (hn : a + n ≤ bytes.length) :
    s.buf.readBytes a n = .ok ((bytes.drop a).take n) := by
  have hlength : ((bytes.drop a).take n).length = n := by
    rw [List.length_take, List.length_drop]
    omega
  have hread := Memory.readBytes_eq_ok (m := s.buf) (a := a) (bytes := (bytes.drop a).take n) fun k hk => by
    rw [h.byte, List.getElem?_take_of_lt (by omega), List.getElem?_drop]
  rwa [hlength] at hread

/-- One command of the client: it goes on where the command left the block, or passes the error on. -/
theorem At.ends_command {i : Instr} {Q : Option Value → State → Prop} (h : At bytes pos crc s) (hi : i.WellFormed)
    (ht : exec i (s.withCommand (encode i)) = .next t)
    (hok : ∀ rest r, t.code = 0 → At bytes t.pos t.crc (t.answered rest r) →
      Q t.resultValue (t.answered rest r))
    (herror : t.code ≠ 0 → t.code = 1 ∨ t.code = 2) : Ends (issue i) s Q :=
  ends_issue hi ht (fun hc => hok _ _ hc (((h.withCommand _).of_exec ht hc).answered ..)) herror

theorem ReadForm.wellFormed {i : Instr} {n : Nat} {sign : Signedness} {advance : Bool}
    (h : ReadForm i n sign advance) : i.WellFormed := by
  cases h <;> rfl

/-- A value-producing command whose value the client takes. -/
theorem ends_issueValue {i : Instr} {Q : Value → State → Prop}
    (h : Ends (issue i) s fun v t => ∃ x, v = some x ∧ Q x t) : Ends (issueValue i) s Q := by
  unfold issueValue
  refine h.bind ?_
  rintro _ t ⟨x, rfl, hQ⟩
  exact hQ

theorem ends_readNat_of_issueValue {i : Instr} {Q : Nat → State → Prop}
    (h : Ends (issueValue i) s fun v t => Q v.toNat t) : Ends (readNat i) s Q :=
  h.bind fun _ _ hQ => ends_pure.mpr hQ

/-! ### The reads (40_cursor_reads.md R100, R101) -/

/-- What a consuming read of `n` bytes at `pos` leaves: POS behind them, and their image `v` in RESULT. -/
structure ReadTo (bytes : List Byte) (pos n : Nat) (sign : Signedness) (crc : Crc) (v : Value) (t : State) : Prop where
  stands : At bytes (pos + n) crc t
  result : t.resultValue = some v
  image : v = readImage n sign ((bytes.drop pos).take n)

theorem At.ends_read {i : Instr} {n : Nat} {sign : Signedness} (h : At bytes pos crc s)
    (form : ReadForm i n sign true) : Ends (issueValue i) s (ReadTo bytes pos n sign crc) := by
  obtain ⟨-, hc, hlen, -, hpos, hcrc⟩ := h.withCommand (encode i)
  refine ends_issueValue ?_
  by_cases hn : pos + n ≤ bytes.length
  · have held := (h.withCommand (encode i)).readBytes hn
    rw [← hpos] at held hn
    refine h.ends_command form.wellFormed
      (exec_read form hc (h.withCommand _).len_fits (by rw [hlen]; exact hn) held) ?_ (fun hne => absurd hc hne)
    intro rest r _ hat
    exact ⟨_, rfl, hat.congr (congrArg (· + n) hpos) hcrc, rfl, by rw [hpos]⟩
  · have hle := h.pos_le
    refine h.ends_command form.wellFormed
      (exec_read_truncated form.body hc (by rw [hlen, hpos]; omega)) ?_ (fun _ => .inl rfl)
    intro _ _ hzero
    cases hzero

theorem ReadTo.toNat_eq {n : Nat} {v : Value} (h : ReadTo bytes pos n .unsigned crc v t) (hn : n ≤ 8) :
    v.toNat = bigEndian ((bytes.drop pos).take n) := by
  have hlength : ((bytes.drop pos).take n).length ≤ 8 := (List.length_take_le ..).trans hn
  have hlt : bigEndian ((bytes.drop pos).take n) < 2 ^ 64 :=
    (bigEndian_lt _).trans_le (Nat.pow_le_pow_right (by decide) (by omega))
  rw [h.image, readImage_unsigned, BitVec.toNat_ofNat, Nat.mod_eq_of_lt hlt]

theorem At.ends_readNat {i : Instr} {n : Nat} (h : At bytes pos crc s) (form : ReadForm i n .unsigned true) :
    Ends (readNat i) s fun x t => At bytes (pos + n) crc t ∧ x = bigEndian ((bytes.drop pos).take n) :=
  ends_readNat_of_issueValue ((h.ends_read form).mono fun _ _ hread =>
    ⟨hread.stands, hread.toNat_eq form.width_le⟩)

end

/-! ### Parts that walk over the bytes -/

/-- From wherever it stands, `m` moves on over the bytes, and goes on only with a value that meets `V`. -/
def Walks {α : Type} (m : Client α) (V : α → Prop) : Prop :=
  ∀ bytes pos crc s, At bytes pos crc s → Ends m s fun a t => V a ∧ ∃ q, pos ≤ q ∧ At bytes q crc t

section
variable {α β : Type} {V : α → Prop} {W : β → Prop}

theorem walks_pure {a : α} (h : V a) : Walks (pure a) V := fun _ pos _ _ hat => ⟨h, pos, Nat.le_refl pos, hat⟩

theorem Walks.bind {m : Client α} {f : α → Client β} (hm : Walks m V) (hf : ∀ a, V a → Walks (f a) W) :
    Walks (m >>= f) W := by
  intro bytes pos crc s hat
  refine (hm bytes pos crc s hat).bind ?_
  rintro a t ⟨ha, q, hq, hat'⟩
  refine (hf a ha bytes q crc t hat').mono ?_
  rintro b u ⟨hb, q', hq', hat''⟩
  exact ⟨hb, q', hq.trans hq', hat''⟩

/-- A check moves nothing, and what follows it may assume that it passed. -/
theorem walks_rejectIf_bind {bad : Bool} {reason : Rejection} {f : Unit → Client β}
    (hf : bad = false → Walks (f ()) W) : Walks (rejectIf bad reason >>= f) W := fun bytes pos crc s hat =>
  .rejectIf_bind fun h => hf h bytes pos crc s hat

theorem ReadForm.walks_issueValue {i : Instr} {n : Nat} {sign : Signedness} (form : ReadForm i n sign true) :
    Walks (issueValue i) fun _ => True := fun _ pos _ _ hat =>
  (hat.ends_read form).mono fun _ _ hread => ⟨trivial, pos + n, Nat.le_add_right pos n, hread.stands⟩

theorem ReadForm.walks_readNat {i : Instr} {n : Nat} {sign : Signedness} (form : ReadForm i n sign true) :
    Walks (readNat i) fun _ => True :=
  form.walks_issueValue.bind fun _ _ => walks_pure trivial

theorem ReadForm.walks_readInt {i : Instr} {n : Nat} {sign : Signedness} (form : ReadForm i n sign true) :
    Walks (readInt i) fun _ => True :=
  form.walks_issueValue.bind fun _ _ => walks_pure trivial

end

/-! ### The records (R165 to R167) -/

theorem ioElements_walks {read : Instr} {n : Nat} {sign : Signedness} (form : ReadForm read n sign true)
    (width count : Nat) (seen : List Nat) : Walks (ioElements width read count seen) fun _ => True := by
  induction count generalizing seen with
  | zero => exact walks_pure trivial
  | succ count ih =>
    exact (ReadForm.u8 true).walks_readNat.bind fun id _ => walks_rejectIf_bind fun _ =>
      form.walks_readNat.bind fun _ _ => (ih (id :: seen)).bind fun _ _ => walks_pure trivial

theorem ioGroup_walks {read : Instr} {n : Nat} {sign : Signedness} (form : ReadForm read n sign true)
    (width : Nat) : Walks (ioGroup width read) fun _ => True :=
  (ReadForm.u8 true).walks_readNat.bind fun count _ => (ioElements_walks form width count []).bind fun _ _ =>
    walks_pure trivial

theorem ioBlock_walks : Walks ioBlock fun _ => True :=
  (ReadForm.u8 true).walks_readNat.bind fun _ _ => (ReadForm.u8 true).walks_readNat.bind fun _ _ =>
    (ioGroup_walks (.u8 true) 1).bind fun _ _ => (ioGroup_walks (.u16 true) 2).bind fun _ _ =>
      (ioGroup_walks (.u32 true) 4).bind fun _ _ => (ioGroup_walks (.u64 true) 8).bind fun _ _ =>
        walks_rejectIf_bind fun _ => walks_pure trivial

/-- What the client checks of a record (R166). -/
def RecordOk (tsValid : Value → Bool) (r : Sample) : Prop := tsValid r.timestamp = true ∧ r.priority ≤ 2

theorem record_walks (tsValid : Value → Bool) : Walks (record tsValid) (RecordOk tsValid) :=
  (ReadForm.u64 true).walks_issueValue.bind fun timestamp _ => walks_rejectIf_bind fun hts =>
    (ReadForm.u8 true).walks_readNat.bind fun priority _ => walks_rejectIf_bind fun hpriority =>
      (ReadForm.i32 true).walks_readInt.bind fun _ _ => (ReadForm.i32 true).walks_readInt.bind fun _ _ =>
        (ReadForm.i16 true).walks_readInt.bind fun _ _ => (ReadForm.u16 true).walks_readNat.bind fun _ _ =>
          (ReadForm.u8 true).walks_readNat.bind fun _ _ => (ReadForm.u16 true).walks_readNat.bind fun _ _ =>
            ioBlock_walks.bind fun _ _ => walks_pure ⟨by simpa using hts, by simpa using hpriority⟩

theorem records_walks (tsValid : Value → Bool) (count : Nat) :
    Walks (records tsValid count) fun rs => rs.length = count ∧ ∀ r ∈ rs, RecordOk tsValid r := by
  induction count with
  | zero => exact walks_pure ⟨rfl, fun _ hr => absurd hr List.not_mem_nil⟩
  | succ count ih =>
    refine (record_walks tsValid).bind fun sample hsample => ih.bind fun rest hrest => walks_pure ?_
    obtain ⟨hlength, hall⟩ := hrest
    exact ⟨congrArg (· + 1) hlength, List.forall_mem_cons.mpr ⟨hsample, hall⟩⟩

end Sys2Proof.Machine

/-!
PROOFS. The envelope of a frame (43_frame_check.md R161 to R164, R169 to R172) and the whole decode.
-/
namespace Sys2Proof.Machine

section
variable {bytes : List Byte} {pos : Nat} {crc : Crc} {s : State}

/-! ### Framing (R163) -/

/-- A byte of the list is the big-endian value of the one byte there. -/
theorem getElem?_eq_bigEndian (h : pos < bytes.length) :
    bytes[pos]?.map BitVec.toNat = some (bigEndian ((bytes.drop pos).take 1)) := by
  rw [List.drop_eq_getElem_cons h, List.take_succ_cons, List.take_zero, List.getElem?_eq_getElem h]
  simp [bigEndian]

/-- What framing leaves: the three fields, as the bytes hold them, and POS behind them. -/
structure Framed (bytes : List Byte) (crc : Crc) (fields : Nat × Nat × Nat) (t : State) : Prop where
  stands : At bytes 9 crc t
  preamble : fields.1 = 0
  preambleBytes : bigEndian (bytes.take 4) = 0
  dataLength : fields.2.1 = bigEndian ((bytes.drop 4).take 4)
  codec : fields.2.2 = 0x08
  codecByte : bytes[8]? = some 0x08

theorem At.ends_framing (h : At bytes 0 crc s) : Ends framing s (Framed bytes crc) := by
  refine (h.ends_readNat (.u32 true)).bind ?_
  rintro preamble t₁ ⟨hat₁, hpreamble⟩
  refine .rejectIf_bind fun hzero => (hat₁.ends_readNat (.u32 true)).bind ?_
  rintro dataLength t₂ ⟨hat₂, hlength⟩
  refine (hat₂.ends_readNat (.u8 true)).bind ?_
  rintro codec t₃ ⟨hat₃, hcodec⟩
  refine .rejectIf_bind fun height => ends_pure.mpr ?_
  have hzero : preamble = 0 := by simpa using hzero
  have height : codec = 8 := by simpa using height
  refine ⟨hat₃, hzero, hpreamble.symm.trans hzero, hlength, height, ?_⟩
  have hbyte := getElem?_eq_bigEndian (bytes := bytes) (pos := 8) hat₃.pos_le
  rw [← hcodec, height] at hbyte
  obtain ⟨b, hb, hvalue⟩ := Option.map_eq_some_iff.mp hbyte
  rw [hb, ← BitVec.toNat_inj.mp (show b.toNat = (0x08 : Byte).toNat from hvalue)]

/-! ### The CRC check (R170) -/

theorem At.ends_issue_crcInit (h : At bytes pos crc s) : Ends (issue .crcInit) s fun _ t => At bytes pos 0 t := by
  obtain ⟨-, hc, -, -, hpos, -⟩ := h.withCommand (encode .crcInit)
  exact h.ends_command rfl (crcInitResult _ hc) (fun _ _ _ hat => hat.congr hpos rfl) (fun hne => absurd hc hne)

/-- The span from `start` to where the client stands. -/
theorem At.ends_issue_crcSpan {start : Imm} (h : At bytes pos crc s) (hstart : start.toNat ≤ pos) :
    Ends (issue (.crcSpan start)) s fun _ t =>
      At bytes pos (crc16 crc ((bytes.drop start.toNat).take (pos - start.toNat))) t := by
  obtain ⟨-, hc, -, hbyte, hpos, hcrc⟩ := h.withCommand (encode (.crcSpan start))
  have hle := h.pos_le
  have hlength : ((bytes.drop start.toNat).take (pos - start.toNat)).length = pos - start.toNat := by
    rw [List.length_take, List.length_drop]
    omega
  have hexec := crcSpanResult _ start ((bytes.drop start.toNat).take (pos - start.toNat)) hc
    (by rw [hlength, hpos]; omega) fun k hk => by
      rw [hbyte, List.getElem?_take_of_lt (by omega), List.getElem?_drop]
  exact h.ends_command rfl hexec (fun _ _ _ hat => hat.congr hpos (congrArg (crc16 · _) hcrc))
    (fun hne => absurd hc hne)

/-- CRC_CHECK after a read goes on only where the low 16 bits of the value read are the CRC (R170). -/
theorem At.ends_issue_crcCheck {v : Value} (h : At bytes pos crc s) (hv : s.resultValue = some v) :
    Ends (issue .crcCheck) s fun _ t => At bytes pos crc t ∧ v.extractLsb' 0 16 = crc := by
  obtain ⟨-, hc, -, -, hpos, hcrc⟩ := h.withCommand (encode .crcCheck)
  have hvalid : s.rvalid = true := by
    by_contra hne
    rw [s.resultValue_of_not_rvalid (by simpa using hne)] at hv
    cases hv
  rw [s.resultValue_of_rvalid hvalid] at hv
  cases hv
  have hexec := crcCheckResult _ hc
  rw [if_neg (by simp [hvalid])] at hexec
  split at hexec
  case isTrue hagrees =>
    exact h.ends_command rfl hexec (fun _ _ _ hat => ⟨hat.congr hpos hcrc, hagrees.trans hcrc⟩)
      (fun hne => absurd hc hne)
  case isFalse => exact h.ends_command rfl hexec (fun _ _ hzero _ => nomatch hzero) (fun _ => .inr rfl)

theorem bigEndian_append (xs ys : List Byte) :
    bigEndian (xs ++ ys) = bigEndian xs * 256 ^ ys.length + bigEndian ys := by
  induction ys using List.reverseRecOn with
  | nil => simp [bigEndian]
  | append_singleton ys b ih =>
    rw [← List.append_assoc, bigEndian_append_singleton, bigEndian_append_singleton, ih, List.length_append,
      List.length_singleton, pow_succ]
    ring

/-- The low 16 bits of a 4-byte field are its last two bytes (42_crc.md R147). -/
theorem toNat_low_half_readImage (hle : pos + 4 ≤ bytes.length) :
    ((readImage 4 .unsigned ((bytes.drop pos).take 4)).extractLsb' 0 16).toNat =
      bigEndian ((bytes.drop (pos + 2)).take 2) := by
  have hsplit : (bytes.drop pos).take 4 = (bytes.drop pos).take 2 ++ (bytes.drop (pos + 2)).take 2 := by
    rw [show 4 = 2 + 2 from rfl, List.take_add, List.drop_drop]
  have hlength : ((bytes.drop (pos + 2)).take 2).length = 2 := by
    rw [List.length_take, List.length_drop]
    omega
  have hlt := bigEndian_lt ((bytes.drop (pos + 2)).take 2)
  rw [hlength] at hlt
  rw [readImage_unsigned, hsplit, bigEndian_append, hlength, BitVec.extractLsb'_toNat, BitVec.toNat_ofNat]
  omega

/-- What the CRC check leaves: the stored CRC is the CRC of the range and the low half of its field. -/
structure CrcChecked (bytes : List Byte) (pos : Nat) (stored : Crc) (t : State) : Prop where
  stands : At bytes (pos + 4) stored t
  computed : crc16 0 ((bytes.drop 8).take (pos - 8)) = stored
  field : stored.toNat = bigEndian ((bytes.drop (pos + 2)).take 2)

theorem At.ends_crcCheck (h : At bytes pos crc s) (hpos : 8 ≤ pos) :
    Ends crcCheck s (CrcChecked bytes pos) := by
  refine h.ends_issue_crcInit.bind fun _ t₁ hat₁ => (hat₁.ends_issue_crcSpan (start := 8) hpos).bind fun _ t₂ hat₂ => ?_
  refine (hat₂.ends_read (.u32 true)).bind fun field t₃ hread => ?_
  refine (hread.stands.ends_issue_crcCheck hread.result).bind ?_
  rintro _ t₄ ⟨hat₄, hagrees⟩
  refine ends_pure.mpr ⟨?_, hagrees.symm, ?_⟩
  · rw [hagrees]
    exact hat₄
  · rw [hread.image]
    exact toNat_low_half_readImage hat₄.pos_le

/-! ### The length cross-check (R171) -/

theorem At.ends_position (h : At bytes pos crc s) :
    Ends (readNat .position) s fun x t => At bytes pos crc t ∧ x = pos := by
  obtain ⟨-, hc, -, -, hpos, hcrc⟩ := h.withCommand (encode .position)
  have hsmall := h.pos_le.trans h.length_le
  refine ends_readNat_of_issueValue <| ends_issueValue <| h.ends_command rfl (positionResult _ hc)
    (fun rest r _ hat => ⟨_, rfl, hat.congr hpos hcrc, ?_⟩) fun hne => absurd hc hne
  rw [hpos, BitVec.toNat_ofNat]
  omega

theorem At.ends_remaining (h : At bytes pos crc s) :
    Ends (readNat .remaining) s fun x t => At bytes pos crc t ∧ x = bytes.length - pos := by
  obtain ⟨hinv, hc, hlen, -, hpos, hcrc⟩ := h.withCommand (encode .remaining)
  have hsmall := h.length_le
  refine ends_readNat_of_issueValue <| ends_issueValue <| h.ends_command rfl (remainingResult _ hc hinv.pos_le)
    (fun rest r _ hat => ⟨_, rfl, hat.congr hpos hcrc, ?_⟩) fun hne => absurd hc hne
  rw [hpos, hlen, BitVec.toNat_ofNat]
  omega

theorem At.ends_lengthCheck (h : At bytes pos crc s) (dataLength : Nat) :
    Ends (lengthCheck dataLength) s fun _ t =>
      At bytes pos crc t ∧ pos = 8 + dataLength + 4 ∧ bytes.length = pos := by
  have hle := h.pos_le
  refine h.ends_position.bind ?_
  rintro _ t₁ ⟨hat₁, rfl⟩
  refine hat₁.ends_remaining.bind ?_
  rintro _ t₂ ⟨hat₂, rfl⟩
  refine ends_rejectIf.mpr fun hchecks => ?_
  simp only [Bool.or_eq_false_iff, bne_eq_false_iff_eq] at hchecks
  exact ⟨hat₂, hchecks.1, by omega⟩

end

/-! ### The whole check (R162, R172) -/

/-- What a Valid verdict says of the bytes of a frame: R172's envelope, with the fields where R161 puts them. -/
structure Envelope (tsValid : Value → Bool) (bytes : List Byte) (p : Packet) : Prop where
  preamble : p.preamble = 0
  preambleBytes : bigEndian (bytes.take 4) = 0
  codec : p.codec = 0x08
  codecByte : bytes[8]? = some 0x08
  dataLength : p.dataLength = bigEndian ((bytes.drop 4).take 4)
  firstCount : bytes[9]?.map BitVec.toNat = some p.recordCount1
  secondCount : bytes[8 + p.dataLength - 1]?.map BitVec.toNat = some p.recordCount2
  countsAgree : p.recordCount1 = p.recordCount2
  samples : p.recordCount2 = p.samples.length
  length : bytes.length = 8 + p.dataLength + 4
  crc : crc16 0x0000 ((bytes.drop 8).take p.dataLength) = p.storedCrc
  crcField : p.storedCrc.toNat = bigEndian ((bytes.drop (8 + p.dataLength + 2)).take 2)
  records : ∀ r ∈ p.samples, RecordOk tsValid r

theorem At.ends_frameCheck {bytes : List Byte} {crc : Crc} {s : State} (h : At bytes 0 crc s)
    (tsValid : Value → Bool) :
    Ends (frameCheck tsValid) s fun p t => Envelope tsValid bytes p ∧ t.code = 0 := by
  refine h.ends_framing.bind ?_
  rintro ⟨preamble, dataLength, codec⟩ t₁ hframed
  refine (hframed.stands.ends_readNat (.u8 true)).bind ?_
  rintro count₁ t₂ ⟨hat₂, hcount₁⟩
  refine (records_walks tsValid count₁ _ _ _ _ hat₂).bind ?_
  rintro samples t₃ ⟨⟨hsamples, hrecords⟩, q, hq, hat₃⟩
  refine (hat₃.ends_readNat (.u8 true)).bind ?_
  rintro count₂ t₄ ⟨hat₄, hcount₂⟩
  refine .rejectIf_bind fun hcounts => (hat₄.ends_crcCheck (by omega)).bind fun stored t₅ hchecked => ?_
  refine (hchecked.stands.ends_lengthCheck dataLength).bind ?_
  rintro _ t₆ ⟨hat₆, hend, hlength⟩
  have hcounts : count₂ = count₁ := by simpa using hcounts
  have hq : q = 8 + dataLength - 1 := by omega
  have hspan : q + 1 - 8 = dataLength := by omega
  refine ends_pure.mpr ⟨?_, hat₆.ok⟩
  exact {
    preamble := hframed.preamble
    preambleBytes := hframed.preambleBytes
    codec := hframed.codec
    codecByte := hframed.codecByte
    dataLength := hframed.dataLength
    firstCount := by rw [getElem?_eq_bigEndian hat₂.pos_le, hcount₁]
    secondCount := by rw [hcount₂, ← hq, getElem?_eq_bigEndian hat₄.pos_le]
    countsAgree := hcounts.symm
    samples := hcounts.trans hsamples.symm
    length := hlength.trans hend
    crc := hspan ▸ hchecked.computed
    crcField := by rw [hchecked.field, show q + 1 + 2 = 8 + dataLength + 2 by omega]
    records := hrecords }

/-! ### LOAD and the decode (R160) -/

/-- The client starts at offset 0 of the bytes that the host loaded. -/
theorem ends_loadFrame {bytes : List Byte} {s : State} (hp : s.params.Legal)
    (hfits : bytes.length ≤ s.params.maxLen) : Ends (loadFrame bytes) s fun _ t => At bytes 0 0 t := by
  have hstep : step { s with pending := .load bytes :: s.pending } = .next ((s.load bytes).answered s.pending none) :=
    step_load rfl hfits
  unfold loadFrame
  rw [ends_bind, ends_get, hstep]
  refine ends_set.mpr (At.answered ?_ _ _)
  exact {
    inv := .load hp hfits
    ok := rfl
    len := s.params.narrow_of_lt _ (hp.lt_of_le_maxLen hfits)
    byte := fun k => by rw [State.load_buf, ← Memory.read_ofBytes bytes 0 k, Nat.zero_add]
    pos := rfl
    crc := rfl }

theorem ends_decode {bytes : List Byte} {s : State} (hp : s.params.Legal) (hfits : bytes.length ≤ s.params.maxLen)
    (tsValid : Value → Bool) :
    Ends (do loadFrame bytes; frameCheck tsValid : Client Packet) s fun p t =>
      Envelope tsValid bytes p ∧ t.code = 0 :=
  (ends_loadFrame hp hfits).bind fun _ _ hat => hat.ends_frameCheck tsValid

/-- The three things the host does with its text (R160): reject it, refuse it, or load it and run the client. -/
theorem decodeFrame_cases (tsValid : Value → Bool) (text : List Char) (s : State) :
    decodeFrame tsValid text s = (.error (.rejected .malformedHexInput), s) ∨
    (∃ bytes, hexBytes text = some bytes ∧ s.params.maxLen < bytes.length ∧
      decodeFrame tsValid text s = (.error (.refused (.loadTooLong bytes.length)), s)) ∨
    ∃ bytes, hexBytes text = some bytes ∧ bytes.length ≤ s.params.maxLen ∧
      decodeFrame tsValid text s = (do loadFrame bytes; frameCheck tsValid : Client Packet).run s := by
  unfold decodeFrame hostInput
  cases hexBytes text with
  | none => exact .inl rfl
  | some bytes =>
    by_cases hlong : bytes.length > s.params.maxLen
    · exact .inr (.inl ⟨bytes, rfl, hlong, by simp only [if_pos hlong]⟩)
    · exact .inr (.inr ⟨bytes, rfl, Nat.le_of_not_lt hlong, by simp only [if_neg hlong]⟩)

/-- Settles O59: a Valid verdict comes from a frame that was loaded, and the check ends with the envelope. -/
theorem validFramesSatisfyTheEnvelope : Obligations.ValidFramesSatisfyTheEnvelope := by
  intro tsValid text s t p hp h
  obtain heq | ⟨_, -, -, heq⟩ | ⟨bytes, hbytes, hfits, heq⟩ := decodeFrame_cases tsValid text s <;> rw [heq] at h
  · cases h
  · cases h
  · obtain ⟨env, hok⟩ := (ends_decode hp hfits tsValid).of_run_ok h
    exact ⟨bytes, hbytes, env.preamble, env.preambleBytes, env.codec, env.codecByte, env.dataLength,
      env.firstCount, env.secondCount, env.countsAgree, env.samples, env.length, env.crc, env.crcField,
      env.records, hok⟩

/-- Settles O60: the ends of the host are on the list, and the client only rejects. -/
theorem clientNeverFaults : Obligations.ClientNeverFaults := by
  intro tsValid text s t e hp h
  obtain heq | ⟨bytes, hbytes, hlong, heq⟩ | ⟨bytes, hbytes, hfits, heq⟩ := decodeFrame_cases tsValid text s <;>
    rw [heq] at h
  · cases h
    exact .inl ⟨_, rfl⟩
  · cases h
    exact .inr ⟨bytes, hbytes, hlong, rfl⟩
  · exact .inl ((ends_decode hp hfits tsValid).of_run_error h)

end Sys2Proof.Machine
